-- ==== Sys2Proof/Word.lean ====
section
/-! DEFINITION. The word types of the EX64 and the index types of Table 0.3. -/

namespace Sys2Proof

/-- One byte of a frame (R99, R160). -/
abbrev Byte := BitVec 8

/-- A 16-bit field: a CRC, the route digest, a two-byte field of a frame (R171, R175). -/
abbrev Half := BitVec 16

/-- The serial number of a sign head (R8). -/
abbrev Serial := BitVec 32

/-- Point index, 0 to 239 (Table 0.3). -/
abbrev PointId := Fin 240
/-- Aisle index, 0 to 479 (Table 0.3). -/
abbrev AisleId := Fin 480
/-- Exit index, 0 to 23 (Table 0.3). -/
abbrev ExitId := Fin 24
/-- Zone index, 0 to 63 (Table 0.3). -/
abbrev ZoneId := Fin 64
/-- Head (placement) index, 0 to 63 (Table 0.3). -/
abbrev HeadId := Fin 64
/-- Gate contact position number 8 × row + column, 0 to 31 (R35). -/
abbrev PositionId := Fin 32
/-- A value of the bearing scale, 0 to 15 in steps of 22.5° (0.5.1). -/
abbrev Bearing := Fin 16
/-- Script number 0 to 12; 0 is the head's built-in steady light (Table 0.3). -/
abbrev ScriptId := Fin 13
/-- Arrow number 0 to 7 in the order of Table 4.1. -/
abbrev ArrowId := Fin 8
/-- Slot number of a sign bus frame, 0 to 99 (R100). -/
abbrev SlotId := Fin 100

end Sys2Proof
end

