-- ==== Sys2Proof/Config.lean ====
section
/-! DEFINITION. The constants the spec fixes for the part: capacities, times and limits.
The spec leaves no value of a command undefined, so there is no free value here. -/

namespace Sys2Proof.Config

/-- The receive buffer holds up to 2 complete requests (R163). -/
def bufferCapacity : Nat := 2
/-- The notice queue holds up to 32 notices (R167). -/
def noticeCapacity : Nat := 32
/-- The stranger list holds up to 8 entries (R121). -/
def strangerCapacity : Nat := 8
/-- The receiver gathers up to 256 unstuffed bytes (R161). -/
def gatherLimit : Nat := 256
/-- A script has 1 to 24 steps (R82). -/
def scriptStepLimit : Nat := 24
/-- A SCRIPT block holds up to 12 consecutive steps (R110). -/
def blockSteps : Nat := 12
/-- ZONE READINGS carries 1 to 64 entries (R23). -/
def readingLimit : Nat := 64
/-- The debounce count at which a position may become a candidate (R36). -/
def debounceCount : Nat := 5
/-- At most 4 candidates are accepted in one scan (R37). -/
def acceptLimit : Nat := 4
/-- A run makes at most 240 sweeps, and so does check 4 of validation (R16, R54). -/
def sweepLimit : Nat := 240
/-- A run that starts at this abandon count is firm (R67). -/
def firmCount : Nat := 3
/-- A base bias or runtime bias over 5000 is stored as 5000 (R6, R42). -/
def biasLimit : Nat := 5000
/-- An aisle is at most 4000 dm long (R4). -/
def lengthLimit : Nat := 4000
/-- Default suspect threshold (R7). -/
def defaultSuspect : Nat := 40
/-- Default smoke threshold (R7). -/
def defaultSmoke : Nat := 90
/-- The sixteenth WAIT in a row is taken as no reply (R125). -/
def waitLimit : Nat := 16
/-- The fault count stops at 65535 (Table 7.1). -/
def faultLimit : Nat := 65535
/-- The mismatch count stops at 3 (R147). -/
def mismatchLimit : Nat := 3
/-- The lost count stops at 10 (R148). -/
def lostLimit : Nat := 10
/-- A head drops its address at this count of BEAT frames without a command (R114). -/
def beatsToDrop : Nat := 10
/-- The script clock runs modulo 64 (R85). -/
def clockModulus : Nat := 64
/-- A slot lasts 2 ms (R100). -/
def slotTime : Nat := 2
/-- A frame lasts 200 ms (R100). -/
def frameTime : Nat := 200
/-- Each claim guard runs for 20 ms (R138, R139). -/
def guardTime : Nat := 20
/-- The flag byte of the panel link (10.2). -/
def flagByte : Byte := 0x7E
/-- The escape byte of the panel link (10.2). -/
def escapeByte : Byte := 0x7D
/-- What an escaped byte is XORed with (10.2). -/
def escapeXor : Byte := 0x20
/-- The broadcast address of the sign bus (Table 0.3). -/
def broadcastAddress : Byte := 0
/-- The partner address of the sign bus (Table 0.3). -/
def partnerAddress : Byte := 126

/-- The bit rate that the LINK_SPEED straps select, in bit/s (Table 10.1). -/
def bitRate (speed : BitVec 2) : Nat :=
  match speed.toNat with
  | 0 => 19200
  | 1 => 38400
  | 2 => 57600
  | _ => 115200

end Sys2Proof.Config
end

