-- ==== Sys2Proof/Syntax.lean ====
section
/-! DEFINITION. The commands of the EX64: one constructor of `Instr` for each row of spec/opcode_table.json, with the
frames and fields they carry. A request row carries the tag and the payload fields of Table 11.2 as the bytes sent. -/

namespace Sys2Proof

/-- PAIR_ROLE (R135). -/
inductive Role
  | a | b
  deriving DecidableEq, Repr

/-- A frame of the sign bus: address, kind, payload, CRC (R173). -/
structure BusFrame where
  address : Byte
  kind : Byte
  payload : List Byte
  crc : Half
  deriving DecidableEq, Repr

/-- What the line showed in a reply window (R100): idle throughout; activity that is not one whole frame begun inside the
window (active when it opened, begun before it opened, or not complete when it closed); or the first frame whose start
bit fell in the window, complete before it closed. -/
inductive Window
  | idle
  | disturbed
  | frame (f : BusFrame)
  deriving DecidableEq, Repr

/-- An unstuffed frame of the panel link less its CRC: type, tag, payload (R172). -/
structure PanelFrame where
  type : Byte
  tag : Byte
  payload : List Byte
  deriving DecidableEq, Repr

/-- The reply codes of Table 10.2. -/
inductive ReplyCode
  | done | clamped | wrongMode | badIndex | badValue | inService | busy | notPaired | zonesActive | badLength | unknownType
  deriving DecidableEq, Repr

/-- The commands, one constructor for each row of spec/opcode_table.json. -/
inductive Instr
  -- resets and operating modes
  | hardReset (speed : BitVec 2) (pairEn : Bool) (role : Role)
  | restart (tag : Byte)
  | arm (tag : Byte)
  | disarm (tag : Byte)
  | alarm (tag : Byte)
  | standDown (tag : Byte)
  | setTiming (tag setting : Byte) (value : Half)
  | validationComplete
  | autoAlarmRequest
  -- hall map and display selector
  | clearMap (tag : Byte)
  | setPoint (tag action index kind zone : Byte)
  | setAisle (tag action : Byte) (index : Half) (endA endB : Byte) (length : Half) (width bearing passage zone : Byte)
  | setExit (tag action index point : Byte) (bias : Half) (row column : Byte)
  | setZone (tag action index suspect smoke supervised : Byte)
  | placeHead (tag index : Byte) (serial : Serial) (point facing enabled : Byte)
  | unplaceHead (tag index : Byte)
  | setScript (tag action script : Byte) (body : List Byte)
  | setKindMap (tag entry script : Byte)
  | blockAisle (tag : Byte) (index : Half)
  | openAisle (tag : Byte) (index : Half)
  -- smoke zones and exits
  | zoneReadings (tag : Byte) (entries : List (Byte × Byte))
  | confirmZone (tag zone : Byte)
  | confirmTimerExpiry (zone : ZoneId)
  | clearHoldExpiry (zone : ZoneId)
  | zoneSilenceExpiry (zone : ZoneId)
  | gateScan (levels : BitVec 32)
  | exitOverride (tag index value : Byte)
  | exitBias (tag index : Byte) (value : Half)
  -- route engine
  | sweepEnd
  | selectionEnd
  | publication
  -- sign bus
  | beat
  | releaseAll
  | enrol
  | partnerSlot
  | updateSlot (slot : SlotId)
  | pollSlot (slot : SlotId)
  | transactionComplete (window : Window)
  | restartBus (tag : Byte)
  -- sign heads
  | testHead (tag index : Byte)
  | restoreHead (tag index : Byte)
  -- pair of controllers
  | yield (tag : Byte)
  | isolate (tag : Byte)
  | yieldingEnd
  | isolateSlotEnd
  | pairSilenceExpiry (partnerHold : Bool)
  | claimGuardExpiry (partnerHold : Bool)
  | observedBroadcast (frame : BusFrame) (window : Window)
  | observedTransaction (frame : BusFrame) (window : Window)
  | partnerQueryObserved (frame : BusFrame)
  | partnerQueryMissed
  -- queries
  | getStatus (tag : Byte)
  | getPoint (tag index : Byte)
  | getZone (tag index : Byte)
  | getExit (tag index : Byte)
  | getHead (tag index : Byte)
  | getStrangers (tag : Byte)
  -- panel link
  | panelByteReceived (byte : Byte) (framingError : Bool)
  | transmitFrameEnd
  | unknownType (type tag : Byte) (payload : List Byte)
  | setNoticeFilter (tag : Byte) (mask : Half)
  | clearNoticeLoss (tag : Byte)
  deriving DecidableEq, Repr

end Sys2Proof
end

