-- ==== Sys2Proof/Decode.lean ====
section
/-! DEFINITION. The byte formats that commands arrive in (section 11): byte order, the CRC, the frames of the panel link
and their stuffing, and the requests of Table 11.2 read from and written to a frame. No row of spec/opcode_table.json
gives bits, so `decodeTableWord` reads no word. -/

namespace Sys2Proof

/-! ## Byte order (R171) -/

/-- The high byte of a two-byte field, which is sent first. -/
def hiByte (w : Half) : Byte := w.extractLsb' 8 8
/-- The low byte of a two-byte field. -/
def loByte (w : Half) : Byte := w.extractLsb' 0 8
/-- The two-byte field sent as `hi`, `lo`. -/
def halfOf (hi lo : Byte) : Half := hi ++ lo
/-- A two-byte field as sent. -/
def halfBytes (w : Half) : List Byte := [hiByte w, loByte w]
/-- A number as a two-byte field. -/
def natHalf (n : Nat) : List Byte := halfBytes (BitVec.ofNat 16 n)
/-- A serial as sent. -/
def serialBytes (s : Serial) : List Byte :=
  [s.extractLsb' 24 8, s.extractLsb' 16 8, s.extractLsb' 8 8, s.extractLsb' 0 8]
/-- The serial sent as four bytes. -/
def serialOf (a b c d : Byte) : Serial := a ++ b ++ c ++ d
/-- A number as a four-byte field. -/
def natWord (n : Nat) : List Byte := serialBytes (BitVec.ofNat 32 n)
/-- A number as a byte. -/
def natByte (n : Nat) : Byte := BitVec.ofNat 8 n
/-- A flag as a byte (Table 11.1). -/
def flagCode (b : Bool) : Byte := if b then 1 else 0

/-! ## CRC (R175) -/

/-- One bit through the CRC register: x^16 + x^12 + x^5 + 1 (R175). -/
def crcBit (c : Half) : Half := if c.msb then (c <<< 1) ^^^ 0x1021 else c <<< 1

/-- One byte through the CRC register, most significant bit first (R175). -/
def crcByte (c : Half) (b : Byte) : Half :=
  crcBit (crcBit (crcBit (crcBit (crcBit (crcBit (crcBit (crcBit (c ^^^ (b ++ (0 : Byte))))))))))

/-- The CRC-16 of R175: the register starts at all ones and the result is not inverted. -/
def crc16 (bytes : List Byte) : Half := bytes.foldl crcByte 0xFFFF

/-! ## Panel link frames (10.2, R172) -/

/-- The bytes a panel link CRC covers (R175). -/
def PanelFrame.body (f : PanelFrame) : List Byte := f.type :: f.tag :: f.payload

/-- The unstuffed frame: type, tag, payload, CRC (R172). -/
def PanelFrame.unstuffed (f : PanelFrame) : List Byte := f.body ++ halfBytes (crc16 f.body)

/-- A byte between the flags: 0x7E and 0x7D are sent as 0x7D and the byte XOR 0x20 (R169). -/
def stuffByte (b : Byte) : List Byte :=
  if b = Config.flagByte ∨ b = Config.escapeByte then [Config.escapeByte, b ^^^ Config.escapeXor] else [b]

/-- The bytes of the line for a frame: flag, stuffed bytes, flag (R169). -/
def PanelFrame.lineBytes (f : PanelFrame) : List Byte :=
  Config.flagByte :: (f.unstuffed.flatMap stuffByte ++ [Config.flagByte])

/-- R162 steps 2 to 4: the unstuffed bytes of a frame with at least 4 bytes and a correct CRC give the frame. -/
def PanelFrame.ofUnstuffed (bytes : List Byte) : Option PanelFrame :=
  match bytes with
  | type :: tag :: rest =>
    let payload := rest.take (rest.length - 2)
    let f : PanelFrame := { type := type, tag := tag, payload := payload }
    if 2 ≤ rest.length ∧ rest.drop (rest.length - 2) = halfBytes (crc16 f.body) then some f else none
  | _ => none

/-! ## Sign bus frames (R173, R175) -/

/-- The bytes a sign bus CRC covers (R175). -/
def BusFrame.body (f : BusFrame) : List Byte := f.address :: f.kind :: f.payload

/-- The bytes of a sign bus frame: address, kind, payload, and the CRC with its high byte first; nothing is stuffed
(R173, R175). -/
def BusFrame.bytes (f : BusFrame) : List Byte := f.body ++ halfBytes f.crc

/-- The sign bus frame of its bytes (R173): the last two are the CRC, high byte first (R175). -/
def BusFrame.ofBytes (bytes : List Byte) : Option BusFrame :=
  match bytes with
  | address :: kind :: rest =>
    match rest.drop (rest.length - 2) with
    | [hi, lo] => some { address := address, kind := kind, payload := rest.take (rest.length - 2), crc := halfOf hi lo }
    | _ => none
  | _ => none

/-! ## Requests (Table 11.2) -/

/-- The (zone, level) entries of a ZONE READINGS payload; none for an odd length (R164). -/
def entriesOf : List Byte → Option (List (Byte × Byte))
  | [] => some []
  | [_] => none
  | z :: l :: rest => (entriesOf rest).map ((z, l) :: ·)

/-- The payload of ZONE READINGS entries (Table 11.2). -/
def entryBytes (entries : List (Byte × Byte)) : List Byte := entries.flatMap fun e => [e.1, e.2]

/-- The frame that carries a request, as Table 11.2 and Table 11.3 lay it out; none for a command that is no request. -/
def encodeRequest : Instr → Option PanelFrame
  | .clearMap t => some ⟨0x01, t, []⟩
  | .setPoint t a i k z => some ⟨0x02, t, [a, i, k, z]⟩
  | .setAisle t a i ea eb len w b p z =>
    some ⟨0x03, t, [a, hiByte i, loByte i, ea, eb, hiByte len, loByte len, w, b, p, z]⟩
  | .setExit t a i p bias r c => some ⟨0x04, t, [a, i, p, hiByte bias, loByte bias, r, c]⟩
  | .setZone t a i s m v => some ⟨0x05, t, [a, i, s, m, v]⟩
  | .placeHead t i s p f e => some ⟨0x06, t, i :: (serialBytes s ++ [p, f, e])⟩
  | .unplaceHead t i => some ⟨0x07, t, [i]⟩
  | .setScript t a s body => some ⟨0x08, t, a :: s :: body⟩
  | .setKindMap t e s => some ⟨0x09, t, [e, s]⟩
  | .setTiming t s v => some ⟨0x0A, t, [s, hiByte v, loByte v]⟩
  | .arm t => some ⟨0x10, t, []⟩
  | .disarm t => some ⟨0x11, t, []⟩
  | .alarm t => some ⟨0x12, t, []⟩
  | .standDown t => some ⟨0x13, t, []⟩
  | .zoneReadings t es => some ⟨0x18, t, entryBytes es⟩
  | .confirmZone t z => some ⟨0x19, t, [z]⟩
  | .blockAisle t i => some ⟨0x1A, t, [hiByte i, loByte i]⟩
  | .openAisle t i => some ⟨0x1B, t, [hiByte i, loByte i]⟩
  | .exitOverride t i v => some ⟨0x1C, t, [i, v]⟩
  | .exitBias t i v => some ⟨0x1D, t, [i, hiByte v, loByte v]⟩
  | .getStatus t => some ⟨0x20, t, []⟩
  | .getPoint t i => some ⟨0x21, t, [i]⟩
  | .getHead t i => some ⟨0x22, t, [i]⟩
  | .getZone t i => some ⟨0x23, t, [i]⟩
  | .getExit t i => some ⟨0x24, t, [i]⟩
  | .getStrangers t => some ⟨0x25, t, []⟩
  | .testHead t i => some ⟨0x28, t, [i]⟩
  | .restoreHead t i => some ⟨0x29, t, [i]⟩
  | .restart t => some ⟨0x2A, t, []⟩
  | .restartBus t => some ⟨0x2B, t, []⟩
  | .yield t => some ⟨0x2C, t, []⟩
  | .isolate t => some ⟨0x2D, t, []⟩
  | .setNoticeFilter t m => some ⟨0x2E, t, [hiByte m, loByte m]⟩
  | .clearNoticeLoss t => some ⟨0x2F, t, []⟩
  | .unknownType ty t p => some ⟨ty, t, p⟩
  | _ => none

/-- A request with no payload; any other length is BAD_LENGTH (R164). -/
def noPayload (f : PanelFrame) (i : Instr) : Except ReplyCode Instr :=
  match f.payload with
  | [] => .ok i
  | _ => .error .badLength

/-- A request with a payload of one byte; any other length is BAD_LENGTH (R164). -/
def onePayload (f : PanelFrame) (i : Byte → Instr) : Except ReplyCode Instr :=
  match f.payload with
  | [b] => .ok (i b)
  | _ => .error .badLength

/-- A request with a payload of two bytes; any other length is BAD_LENGTH (R164). -/
def twoPayload (f : PanelFrame) (i : Byte → Byte → Instr) : Except ReplyCode Instr :=
  match f.payload with
  | [b, c] => .ok (i b c)
  | _ => .error .badLength

/-- A request with a payload of three bytes; any other length is BAD_LENGTH (R164). -/
def threePayload (f : PanelFrame) (i : Byte → Byte → Byte → Instr) : Except ReplyCode Instr :=
  match f.payload with
  | [b, c, d] => .ok (i b c d)
  | _ => .error .badLength

/-- The first two checks of R164: the type, then the payload length. SET SCRIPT and ZONE READINGS have their lengths
checked further where they are served, from their own counts. -/
def decodeRequest (f : PanelFrame) : Except ReplyCode Instr :=
  match f.type.toNat with
  | 0x01 => noPayload f (.clearMap f.tag)
  | 0x02 =>
    match f.payload with
    | [a, i, k, z] => .ok (.setPoint f.tag a i k z)
    | _ => .error .badLength
  | 0x03 =>
    match f.payload with
    | [a, ih, il, ea, eb, lh, ll, w, b, p, z] =>
      .ok (.setAisle f.tag a (halfOf ih il) ea eb (halfOf lh ll) w b p z)
    | _ => .error .badLength
  | 0x04 =>
    match f.payload with
    | [a, i, p, bh, bl, r, c] => .ok (.setExit f.tag a i p (halfOf bh bl) r c)
    | _ => .error .badLength
  | 0x05 =>
    match f.payload with
    | [a, i, s, m, v] => .ok (.setZone f.tag a i s m v)
    | _ => .error .badLength
  | 0x06 =>
    match f.payload with
    | [i, s3, s2, s1, s0, p, fc, e] => .ok (.placeHead f.tag i (serialOf s3 s2 s1 s0) p fc e)
    | _ => .error .badLength
  | 0x07 => onePayload f (.unplaceHead f.tag)
  | 0x08 =>
    match f.payload with
    | a :: s :: body => .ok (.setScript f.tag a s body)
    | _ => .error .badLength
  | 0x09 => twoPayload f (.setKindMap f.tag)
  | 0x0A => threePayload f fun s vh vl => .setTiming f.tag s (halfOf vh vl)
  | 0x10 => noPayload f (.arm f.tag)
  | 0x11 => noPayload f (.disarm f.tag)
  | 0x12 => noPayload f (.alarm f.tag)
  | 0x13 => noPayload f (.standDown f.tag)
  | 0x18 =>
    match entriesOf f.payload with
    | some es => .ok (.zoneReadings f.tag es)
    | none => .error .badLength
  | 0x19 => onePayload f (.confirmZone f.tag)
  | 0x1A => twoPayload f fun h l => .blockAisle f.tag (halfOf h l)
  | 0x1B => twoPayload f fun h l => .openAisle f.tag (halfOf h l)
  | 0x1C => twoPayload f (.exitOverride f.tag)
  | 0x1D => threePayload f fun i vh vl => .exitBias f.tag i (halfOf vh vl)
  | 0x20 => noPayload f (.getStatus f.tag)
  | 0x21 => onePayload f (.getPoint f.tag)
  | 0x22 => onePayload f (.getHead f.tag)
  | 0x23 => onePayload f (.getZone f.tag)
  | 0x24 => onePayload f (.getExit f.tag)
  | 0x25 => noPayload f (.getStrangers f.tag)
  | 0x28 => onePayload f (.testHead f.tag)
  | 0x29 => onePayload f (.restoreHead f.tag)
  | 0x2A => noPayload f (.restart f.tag)
  | 0x2B => noPayload f (.restartBus f.tag)
  | 0x2C => noPayload f (.yield f.tag)
  | 0x2D => noPayload f (.isolate f.tag)
  | 0x2E => twoPayload f fun h l => .setNoticeFilter f.tag (halfOf h l)
  | 0x2F => noPayload f (.clearNoticeLoss f.tag)
  | _ => .error .unknownType

/-- The type bytes of Table 11.2. -/
def requestTypes : List Byte :=
  [0x01, 0x02, 0x03, 0x04, 0x05, 0x06, 0x07, 0x08, 0x09, 0x0A, 0x10, 0x11, 0x12, 0x13, 0x18, 0x19, 0x1A, 0x1B, 0x1C,
    0x1D, 0x20, 0x21, 0x22, 0x23, 0x24, 0x25, 0x28, 0x29, 0x2A, 0x2B, 0x2C, 0x2D, 0x2E, 0x2F]

/-- The command that a word spells by the bits of spec/opcode_table.json: no row gives bits, so none. -/
def decodeTableWord (_nbits _w : Nat) : Option Instr := none

end Sys2Proof
end

