-- ==== Sys2Proof/Machine/State.lean ====
section
/-! DEFINITION. The state of the EX64 as plain data, block by block as in Table 0.1, and its values after hard reset. -/

namespace Sys2Proof.Machine

/-! ## Hall map store (section 1) -/

/-- Kind of a point (R2). -/
inductive PointKind
  | junction | exit
  deriving DecidableEq, Repr

/-- A record of the point table (R2). -/
structure Point where
  defined : Bool
  kind : PointKind
  zone : Option ZoneId
  deriving DecidableEq, Repr

/-- Directions in which people may walk along an aisle (R3). -/
inductive Passage
  | both | aToB | bToA
  deriving DecidableEq, Repr

/-- A record of the aisle table with its blocked flag (Table 1.1, R5). -/
structure Aisle where
  defined : Bool
  endA : PointId
  endB : PointId
  /-- 1 to 4000 dm. -/
  length : Nat
  /-- 1 to 4, 1 the narrowest. -/
  width : Nat
  bearing : Bearing
  passage : Passage
  zone : Option ZoneId
  blocked : Bool
  deriving DecidableEq, Repr

/-- A position of the gate contact matrix (R35). -/
structure Position where
  row : Fin 4
  column : Fin 8
  deriving DecidableEq, Repr

/-- The definition fields of an exit (R6). -/
structure Exit where
  defined : Bool
  point : PointId
  /-- 0 to 5000. -/
  baseBias : Nat
  contact : Option Position
  deriving DecidableEq, Repr

/-- The definition fields of a zone (R7). -/
structure Zone where
  defined : Bool
  /-- 1 to 254. -/
  suspect : Nat
  /-- Suspect threshold + 1 to 255. -/
  smoke : Nat
  supervised : Bool
  deriving DecidableEq, Repr

/-- A record of the placement table (R8). -/
structure Placement where
  defined : Bool
  serial : Serial
  point : PointId
  facing : Bearing
  enabled : Bool
  deriving DecidableEq, Repr

/-- The table named in a failure record (R15). -/
inductive FailTable
  | none | point | aisle | exit | placement | kindMap
  deriving DecidableEq, Repr

/-- The failure record of a validation (R15). -/
structure Failure where
  /-- 1 to 7. -/
  check : Nat
  table : FailTable
  index : Nat
  deriving DecidableEq, Repr

/-- The last validation result (R20). -/
inductive Validation
  | none | running | passed
  | failed (f : Failure)
  | cancelled
  deriving DecidableEq, Repr

/-- The hall map store (section 1). -/
structure MapStore where
  points : Vector Point 240
  aisles : Vector Aisle 480
  exits : Vector Exit 24
  zones : Vector Zone 64
  placements : Vector Placement 64
  /-- The map-validated flag (R11). -/
  validated : Bool
  lastValidation : Validation
  deriving DecidableEq, Repr

/-- An undefined point after hard reset (Table 1.4). -/
def Point.reset : Point := { defined := false, kind := .junction, zone := none }
/-- An undefined aisle after hard reset (Table 1.4). -/
def Aisle.reset : Aisle :=
  { defined := false, endA := 0, endB := 0, length := 1, width := 1, bearing := 0, passage := .both, zone := none,
    blocked := false }
/-- An undefined exit after hard reset (Table 1.4). -/
def Exit.reset : Exit := { defined := false, point := 0, baseBias := 0, contact := none }
/-- An undefined zone after hard reset (Table 1.4). -/
def Zone.reset : Zone :=
  { defined := false, suspect := Config.defaultSuspect, smoke := Config.defaultSmoke, supervised := true }
/-- An undefined placement after hard reset (Table 1.4). -/
def Placement.reset : Placement := { defined := false, serial := 0, point := 0, facing := 0, enabled := false }

/-- The map store after hard reset (Table 1.4). -/
def MapStore.reset : MapStore :=
  { points := Vector.replicate 240 Point.reset
    aisles := Vector.replicate 480 Aisle.reset
    exits := Vector.replicate 24 Exit.reset
    zones := Vector.replicate 64 Zone.reset
    placements := Vector.replicate 64 Placement.reset
    validated := false
    lastValidation := .none }

/-! ## Zone monitor (section 2) -/

/-- Zone states (2.1.1). -/
inductive ZoneState
  | clear | suspect | smoke | clearing | silent
  deriving DecidableEq, Repr

/-- The runtime record of a zone (R22). A timer is stopped (`none`) or holds its expiry time in ms. -/
structure ZoneRt where
  state : ZoneState
  lastReading : Option Byte
  confirm : Option Nat
  clearHold : Option Nat
  silence : Option Nat
  deriving DecidableEq, Repr

/-- The reset value of a zone's runtime record (R22). -/
def ZoneRt.reset : ZoneRt := { state := .clear, lastReading := none, confirm := none, clearHold := none, silence := none }

/-! ## Gate scanner (R35) -/

/-- Contact state of a matrix position (R35). -/
inductive ContactState
  | unknown | made | broken
  deriving DecidableEq, Repr

/-- The scanner's record of one position (R35). The run level is `some true` for made, `some false` for broken. -/
structure Contact where
  state : ContactState
  level : Option Bool
  /-- 0 to 5. -/
  count : Nat
  deferred : Bool
  deriving DecidableEq, Repr

/-- A position after hard reset and RESTART (R35). -/
def Contact.reset : Contact := { state := .unknown, level := none, count := 0, deferred := false }

/-! ## Exit monitor (R39) -/

/-- Override of an exit (R39). -/
inductive Override
  | auto | forcedOpen | forcedClosed
  deriving DecidableEq, Repr

/-- Contact state of an exit (R39). -/
inductive ExitContact
  | unknown | made | broken | none
  deriving DecidableEq, Repr

/-- The runtime fields of an exit (R39). -/
structure ExitRt where
  override : Override
  /-- 0 to 5000. -/
  bias : Nat
  contact : ExitContact
  available : Bool
  /-- The contact state is copied from the scanner at the end of the next scan (R39). -/
  copyDue : Bool
  deriving DecidableEq, Repr

/-- What GET EXIT reports of an exit that is not defined (R39). -/
def ExitRt.reset : ExitRt := { override := .auto, bias := 0, contact := .none, available := false, copyDue := false }

/-! ## Route engine (section 3) -/

/-- A route pair (smoke length, walk cost) (0.5.1). -/
structure Pair where
  smoke : Nat
  walk : Nat
  deriving DecidableEq, Repr

/-- Run states (R45). -/
inductive RunState
  | idle | sweeping | selecting | publishing
  deriving DecidableEq, Repr

/-- Hazard class of an aisle in a snapshot (R49). -/
inductive Hazard
  | clear | silent | suspect | smoke
  deriving DecidableEq, Repr

/-- What a snapshot holds of one aisle (R49). -/
structure SnapAisle where
  usable : Bool
  passage : Passage
  hazard : Hazard
  deriving DecidableEq, Repr

/-- The snapshot of a route run (R49). -/
structure Snapshot where
  aisles : Vector SnapAisle 480
  /-- The source pair of each exit, if it has one. -/
  sources : Vector (Option Pair) 24
  hystAbs : Nat
  hystPct : Nat
  deriving DecidableEq, Repr

/-- Status of a point in the route table (R46). -/
inductive RouteStatus
  | undefined | noRoute | routed | exitHere
  deriving DecidableEq, Repr

/-- A route record (Table 3.1). -/
structure Route where
  status : RouteStatus
  best : Option Pair
  next : Option AisleId
  target : Option ExitId
  deriving DecidableEq, Repr

/-- A route table (R46). -/
abbrev RouteTable := Vector Route 240

/-- The working pairs of a run; `none` is UNREACHABLE (R45). -/
abbrev Pairs := Vector (Option Pair) 240

/-- The route engine (R45). -/
structure Engine where
  run : RunState
  snapshot : Option Snapshot
  pairs : Pairs
  /-- 1 to 240 in a run, 0 when there is none. -/
  sweep : Nat
  changeMark : Bool
  abandonMark : Bool
  firmMark : Bool
  /-- 0 to 3. -/
  abandonCount : Nat
  pendingFlag : Bool
  /-- The table selection has written and that is not yet published (R56, R61). -/
  newTable : Option RouteTable
  table : RouteTable
  digest : Half
  deriving DecidableEq, Repr

/-- A record with status UNDEFINED (R46). -/
def Route.undefined : Route := { status := .undefined, best := none, next := none, target := none }
/-- A record with status NO_ROUTE (R46). -/
def Route.noRoute : Route := { status := .noRoute, best := none, next := none, target := none }

/-- The digest of 240 values 0xFFFF (R47); test_reset_digest checks it against the CRC. -/
def resetDigest : Half := 0x7C02

/-- The engine after hard reset (Table 3.7). -/
def Engine.reset : Engine :=
  { run := .idle
    snapshot := none
    pairs := Vector.replicate 240 none
    sweep := 0
    changeMark := false
    abandonMark := false
    firmMark := false
    abandonCount := 0
    pendingFlag := false
    newTable := none
    table := Vector.replicate 240 Route.undefined
    digest := resetDigest }

/-! ## Display selector (section 4) -/

/-- Display kinds (Table 4.1). -/
inductive DisplayKind
  | standby | route | routeSmoke | exitHere | noRoute
  deriving DecidableEq, Repr

/-- A display record (Table 4.1); the arrow `none` is NONE. -/
structure Display where
  kind : DisplayKind
  arrow : Option ArrowId
  script : ScriptId
  phase : Fin 64
  deriving DecidableEq, Repr

/-- A script step (Table 4.7). -/
inductive ScriptStep
  | light (arrow glyph : Nat) (hold : Nat)
  | loop (target count : Nat)
  | finish
  deriving DecidableEq, Repr

/-- The display selector (section 4). `library` holds script n at place n − 1. -/
structure Selector where
  desired : Vector (Option Display) 64
  library : Vector (Option (List ScriptStep)) 12
  generation : Byte
  kindMap : Vector ScriptId 10
  deriving DecidableEq, Repr

/-- The selector after hard reset (R71, R76, R82). -/
def Selector.reset : Selector :=
  { desired := Vector.replicate 64 none
    library := Vector.replicate 12 none
    generation := 0
    kindMap := Vector.replicate 10 0 }

/-! ## Update queue (section 5) -/

/-- An entry of the update queue (Table 5.1); `urgent` is the class. -/
structure Entry where
  head : HeadId
  display : Display
  urgent : Bool
  held : Bool
  deriving DecidableEq, Repr

/-! ## Sign bus controller (section 6) -/

/-- The kind of a slot in the frame plan (Table 6.3). -/
inductive SlotKind
  | beat | releaseAll | enrol | partner | update
  | poll (h : HeadId)
  deriving DecidableEq, Repr

/-- A command of the sign bus with its content (Table 11.5). Codes of fields that the part does not interpret are held
as sent; script steps as the two bytes that carry them (R174). -/
inductive BusCommand
  | beat (beat modeClass : Byte)
  | releaseAll (beat modeClass : Byte)
  | invite (contention : Bool)
  | query (digest : Half) (mode beat : Byte)
  | assign (serial : Serial)
  | script (generation script block : Byte) (steps : List Half)
  | display (d : Display)
  | resync (serial : Serial) (address generation : Byte) (d : Display)
  | test
  | poll
  deriving DecidableEq, Repr

/-- The transaction in flight (R101). -/
structure Transaction where
  slot : SlotId
  kind : SlotKind
  address : Byte
  head : Option HeadId
  command : BusCommand
  deriving DecidableEq, Repr

/-- Frame timing (R101): start of the present frame in ms, and the present slot. -/
structure FrameTiming where
  start : Nat
  slot : SlotId
  deriving DecidableEq, Repr

/-- The sign bus controller (R101). -/
structure Bus where
  frame : Option FrameTiming
  plan : Option (Vector SlotKind 100)
  /-- Beat number of the present frame. -/
  beat : Byte
  nextBeat : Byte
  contention : Bool
  releaseAll : Bool
  inFlight : Option Transaction
  /-- The bytes of the frame the part has driven onto the bus in its present slot (R173). -/
  line : Option (List Byte)
  deriving DecidableEq, Repr

/-- The sign bus controller after a hard reset that latches PAIR_EN as given (Table 6.2). -/
def Bus.reset (pairEn : Bool) : Bus :=
  { frame := none
    plan := none
    beat := 0
    nextBeat := 0
    contention := true
    releaseAll := !pairEn
    inFlight := none
    line := none }

/-! ## Head manager (section 7) -/

/-- States of a head record (Table 7.2). -/
inductive HeadState
  | absent | joining | loading | serving | recovering | failed
  deriving DecidableEq, Repr

/-- The abilities a head announces (R117). -/
structure Abilities where
  level : Byte
  arrows : Byte
  capacity : Byte
  deriving DecidableEq, Repr

/-- A segment fault mask: the glyph and the eight arrows, bit k for arrow k (R75). -/
structure SegMask where
  glyph : Bool
  arrows : Byte
  deriving DecidableEq, Repr

/-- REJECT reasons (Table 6.5). -/
inductive RejectReason
  | format | scriptMissing | noRoom | other
  deriving DecidableEq, Repr

/-- A head record (Table 7.1). -/
structure Head where
  state : HeadState
  abilities : Option Abilities
  faultMask : SegMask
  generation : Option Byte
  /-- The (script, block) pairs acknowledged in the present loading (R123). -/
  loaded : List (Nat × Nat)
  confirmed : Option Display
  /-- 0 to 15. -/
  waitCount : Nat
  /-- 0 to 65535. -/
  faultCount : Nat
  lastReject : Option RejectReason
  /-- The announced-since-failure mark (R120). -/
  announced : Bool
  /-- A head test is PENDING (R130). -/
  testPending : Bool
  deriving DecidableEq, Repr

/-- An empty fault mask. -/
def SegMask.empty : SegMask := { glyph := false, arrows := 0 }

/-- A head record after hard reset (Table 7.5). -/
def Head.reset : Head :=
  { state := .absent
    abilities := none
    faultMask := SegMask.empty
    generation := none
    loaded := []
    confirmed := none
    waitCount := 0
    faultCount := 0
    lastReject := none
    announced := false
    testPending := false }

/-- An entry of the stranger list (R121). -/
structure Stranger where
  serial : Serial
  abilities : Abilities
  deriving DecidableEq, Repr

/-- The head manager (section 7). -/
structure HeadManager where
  records : Vector Head 64
  /-- Oldest first. -/
  strangers : List Stranger
  lastFaulty : Option Serial
  deriving DecidableEq, Repr

/-- The head manager after hard reset (Table 7.5). -/
def HeadManager.reset : HeadManager :=
  { records := Vector.replicate 64 Head.reset, strangers := [], lastFaulty := none }

/-! ## Pair unit (section 8) -/

/-- Pair states (Table 8.2). -/
inductive PairState
  | solo | reserve | claiming | duty | yielding | isolated
  deriving DecidableEq, Repr

/-- The partner report (R135); mode and pair state as the codes received (Table 11.1). -/
structure PartnerReport where
  digest : Half
  mode : Byte
  state : Byte
  deriving DecidableEq, Repr

/-- The claim guard while it runs (R135): expiry in ms and guard number, `second` for guard 2. -/
structure ClaimGuard where
  expiry : Nat
  second : Bool
  deriving DecidableEq, Repr

/-- The pair unit (Table 8.1). -/
structure PairUnit where
  enabled : Bool
  role : Role
  state : PairState
  /-- HOLD drive: asserted when set. -/
  hold : Bool
  silence : Option Nat
  guard : Option ClaimGuard
  afterYield : Bool
  stuck : Bool
  /-- 0 to 3. -/
  mismatch : Nat
  /-- 0 to 10. -/
  lost : Nat
  report : Option PartnerReport
  /-- An accepted ISOLATE waits for the end of the slot in progress (R142). -/
  isolating : Bool
  /-- The bytes of the partner reply last sent on the HOLD output (R146, R173). -/
  holdReply : Option (List Byte)
  deriving DecidableEq, Repr

/-- The claim wait of a role with the default TAKEOVER_WAIT of 1200 ms and the after-yield mark clear (Table 8.3). -/
def resetWait : Role → Nat
  | .a => 1200
  | .b => 2400

/-- The pair unit after a hard reset at time 0 that latches the straps given (Table 8.1). -/
def PairUnit.reset (enabled : Bool) (role : Role) : PairUnit :=
  { enabled := enabled
    role := role
    state := if enabled then .reserve else .solo
    hold := false
    silence := if enabled then some (resetWait role) else none
    guard := none
    afterYield := false
    stuck := false
    mismatch := 0
    lost := 0
    report := none
    isolating := false
    holdReply := none }

/-! ## Mode controller (section 9) -/

/-- Operating modes (R150). -/
inductive Mode
  | setup | validating | guard | alarm
  deriving DecidableEq, Repr

/-- The timing settings store (Table 9.1): CONFIRM_TIME, CLEAR_HOLD and SILENCE_TIME in s, TAKEOVER_WAIT in ms. -/
structure Timing where
  confirmTime : Nat
  clearHold : Nat
  silenceTime : Nat
  autoAlarm : Bool
  hystAbs : Nat
  hystPct : Nat
  phaseUnit : Nat
  takeoverWait : Nat
  deriving DecidableEq, Repr

/-- The defaults of Table 9.1. -/
def Timing.reset : Timing :=
  { confirmTime := 6
    clearHold := 60
    silenceTime := 20
    autoAlarm := true
    hystAbs := 100
    hystPct := 15
    phaseUnit := 100
    takeoverWait := 1200 }

/-! ## Notices (section 10) -/

/-- Causes of a MODE notice (R151). -/
inductive ModeCause
  | hardReset | arm | passed | failed | cancelled | disarm | alarm | autoAlarm | standDown | restart
  deriving DecidableEq, Repr

/-- Validation outcome of a MODE notice (R151). -/
inductive ModeOutcome
  | none | passed
  | failed (f : Failure)
  | cancelled
  deriving DecidableEq, Repr

/-- Causes of a ZONE notice (R33). -/
inductive ZoneCause
  | reading | confirmExpiry | clearHoldExpiry | silenceExpiry | confirmZone
  deriving DecidableEq, Repr

/-- Causes of a HEAD notice (Table 7.4). -/
inductive HeadCause
  | enrolFault | announcedWhileFailed | loaded | resynced | reject | noReply | waitLimit
  deriving DecidableEq, Repr

/-- Causes of a PAIR notice (Table 8.5). -/
inductive PairCause
  | partnerStuck | claimWithdrawn | conflict | takeover | yielded | isolated | digestMismatch | partnerLost
  deriving DecidableEq, Repr

/-- The result of a head test that ended *done* (R131): the measured fault mask with its *no generation* mark, and the
announced arrows among its faulty ones. -/
structure TestResult where
  mask : SegMask
  noGeneration : Bool
  announced : Byte
  deriving DecidableEq, Repr

/-- A notice with its content (R167): MODE (R151), ZONE (R33), EXIT (R43), ROUTES (R62), HEAD (R132), STRANGER (R121),
TEST (R131; the result is absent for *head failed*), PAIR (R149). -/
inductive Notice
  | mode (previous : Option Mode) (new : Mode) (cause : ModeCause) (outcome : ModeOutcome) (zone : Option ZoneId)
  | zone (zone : ZoneId) (previous new : ZoneState) (lastReading : Option Byte) (cause : ZoneCause)
  | exit (exit : ExitId) (available : Bool) (override : Override) (contact : ExitContact) (zone : Option ZoneState)
  | routes (routed exitHere noRoute smoke headsChanged abandons : Nat) (digest : Half)
  | head (head : Option HeadId) (serial : Serial) (previous new : Option HeadState) (cause : HeadCause)
      (faultCount : Nat) (lastReject : Option RejectReason) (announced : Option Abilities)
  | stranger (serial : Serial) (abilities : Abilities) (entries : Nat) (dropped : Bool)
  | test (head : HeadId) (result : Option TestResult)
  | pair (cause : PairCause) (before after : PairState) (role : Role) (digest : Half) (report : Option PartnerReport)
  deriving DecidableEq, Repr

/-! ## Panel link (section 10) -/

/-- Hunt states of the receiver (R161). -/
inductive Hunt
  | hunting | gathering
  deriving DecidableEq, Repr

/-- The frame on the line: its content and the bytes of the line, flags and escapes included (R169). -/
structure Sending where
  frame : PanelFrame
  bytes : List Byte
  deriving DecidableEq, Repr

/-- The panel link (section 10). -/
structure Link where
  speed : BitVec 2
  hunt : Hunt
  gathered : List Byte
  escape : Bool
  /-- Complete requests that wait, in order of arrival (R163). -/
  buffer : List PanelFrame
  /-- The reply slot (R163). -/
  reply : Option PanelFrame
  sending : Option Sending
  /-- A request is in service (R169). -/
  serving : Bool
  notices : List Notice
  /-- Bit k set masks notice kind k, in the order of R172. -/
  filter : Byte
  lossMark : Bool
  discarded : Bool
  deriving DecidableEq, Repr

/-- The MODE notice of a hard reset as the transmitter sends it (R157, R172): the bytes are `lineBytes` of its frame, as
test_reset_notice checks. -/
def resetNotice : Sending :=
  { frame := { type := 0xC0, tag := 0, payload := [0xFF, 0, 0, 0, 0, 0, 0, 0, 0xFF] }
    bytes := [0x7E, 0xC0, 0x00, 0xFF, 0x00, 0x00, 0x00, 0x00, 0x00, 0x00, 0x00, 0xFF, 0x8B, 0xBD, 0x7E] }

/-- The panel link after a hard reset (Table 10.4): the MODE notice of R157 has been offered, and the idle transmitter
has begun it (R169). -/
def Link.reset (speed : BitVec 2) : Link :=
  { speed := speed
    hunt := .hunting
    gathered := []
    escape := false
    buffer := []
    reply := none
    sending := some resetNotice
    serving := false
    notices := []
    filter := 0
    lossMark := false
    discarded := false }

/-! ## Sign heads, as devices on the bus (sections 4 and 6) -/

/-- A script that a head is running (R86): the step reached, the beats left in its hold, the counters of the LOOP steps
(`none` idle), and the levels shown. -/
structure Playing where
  step : Nat
  hold : Nat
  counters : List (Nat × Nat)
  arrowLevel : Nat
  glyphLevel : Nat
  deriving DecidableEq, Repr

/-- What a sign head does on its side of the bus, as far as the manual describes it (R85 to R87, R109 to R112, R114). -/
structure Device where
  serial : Serial
  address : Option Byte
  /-- BEAT frames received since the last command at its address (R114). -/
  beats : Nat
  lastBeat : Byte
  alarmClass : Bool
  generation : Option Byte
  /-- The scripts it holds, as it has acknowledged them (R110). -/
  scripts : List (Nat × List ScriptStep)
  display : Option Display
  /-- The script of the display runs; `none` while the head shows it as with script 0 (R87). -/
  playing : Option Playing
  /-- A RESYNC named a generation that the head does not hold yet: it shows script 0 until that is loaded (R111). -/
  awaiting : Option Byte
  deriving DecidableEq, Repr

/-- What a BEAT or RELEASE ALL on the bus tells every head that receives it: the beat number and whether the mode class is
alarm (R104, R116). -/
structure Heard where
  beat : Byte
  alarm : Bool
  deriving DecidableEq, Repr

/-! ## The part -/

/-- The EX64 and the commands that wait for it. -/
structure State where
  map : MapStore
  zones : Vector ZoneRt 64
  /-- Automatic requests for ALARM on their way to the mode controller (R34, R154). -/
  alarmRequests : List ZoneId
  scanner : Vector Contact 32
  exits : Vector ExitRt 24
  engine : Engine
  selector : Selector
  queue : List Entry
  bus : Bus
  heads : HeadManager
  pair : PairUnit
  mode : Mode
  timing : Timing
  link : Link
  devices : List Device
  /-- The last BEAT or RELEASE ALL on the bus, as its heads have heard it (R114, log 28). -/
  heard : Option Heard
  /-- The part's time in ms. -/
  now : Nat
  /-- The commands that wait, first in, first out. -/
  pending : List Instr
  deriving DecidableEq, Repr

/-- Why a command stops the part: no rule of the spec stops it, so there is no reason. -/
inductive Fault
  deriving DecidableEq, Repr

/-- Why a command has no meaning. -/
inductive Refusal
  /-- The command is not modelled yet: no arm of `exec` answers so. Safe. -/
  | notModelled (mnemonic : String)
  deriving DecidableEq, Repr

/-- The part right after a hard reset with LINK_SPEED 0, PAIR_EN clear and PAIR_ROLE A (R157). The straps are the
board's: DESIGN CHOICE, log 6; HARD_RESET latches any others. -/
def State.reset : State :=
  { map := MapStore.reset
    zones := Vector.replicate 64 ZoneRt.reset
    alarmRequests := []
    scanner := Vector.replicate 32 Contact.reset
    exits := Vector.replicate 24 ExitRt.reset
    engine := Engine.reset
    selector := Selector.reset
    queue := []
    bus := Bus.reset false
    heads := HeadManager.reset
    pair := PairUnit.reset false .a
    mode := .setup
    timing := Timing.reset
    link := Link.reset 0
    devices := []
    heard := none
    now := 0
    pending := [] }

end Sys2Proof.Machine
end

