-- ==== Sys2Proof/Machine/Ops.lean ====
section
/-! DEFINITION. Operations on the indexed tables that every block shares, and the part's clock. -/

namespace Sys2Proof.Machine

/-- The record at an index. -/
def look {α : Type} {n : Nat} (v : Vector α n) (i : Fin n) : α := v.get i

/-- The table with the record at an index replaced. -/
def store {α : Type} {n : Nat} (v : Vector α n) (i : Fin n) (a : α) : Vector α n := v.set i.val a i.isLt

/-- The table with the record at an index changed by a function. -/
def change {α : Type} {n : Nat} (v : Vector α n) (i : Fin n) (f : α → α) : Vector α n := store v i (f (look v i))

/-- The table whose record at each index the function gives. -/
def tabulate {α : Type} (n : Nat) (f : Fin n → α) : Vector α n := ⟨⟨(List.finRange n).map f⟩, by simp⟩

/-- A step taken for every index in ascending order. -/
def forEach {σ : Type} (n : Nat) (f : Fin n → σ → σ) (s : σ) : σ := (List.finRange n).foldl (fun s i => f i s) s

/-- The lowest index that meets a condition. -/
def firstIndex (n : Nat) (p : Fin n → Bool) : Option (Fin n) := (List.finRange n).find? p

/-- How many indices meet a condition. -/
def countIndex (n : Nat) (p : Fin n → Bool) : Nat := (List.finRange n).countP p

/-- The index with a given number, if it lies in the range of Table 0.3. -/
def indexOf (n k : Nat) : Option (Fin n) := if h : k < n then some ⟨k, h⟩ else none

/-- A value brought to the nearer end of its range (R1, R156). -/
def clampTo (low high v : Nat) : Nat := min high (max low v)

/-- The clock brought up to a moment that an event of the part's own timers marks (log 3, 4). -/
def reachTime (t : Nat) (s : State) : State := { s with now := max s.now t }

/-! ## Named accesses to the blocks -/

/-- The head record of an index (R117). -/
def headOf (s : State) (h : HeadId) : Head := look s.heads.records h

/-- The part with one head record replaced. -/
def setHead (h : HeadId) (r : Head) (s : State) : State :=
  { s with heads := { s.heads with records := store s.heads.records h r } }

/-- The runtime record of a zone (R22). -/
def zoneOf (s : State) (z : ZoneId) : ZoneRt := look s.zones z

/-- The part with one zone runtime record replaced. -/
def setZoneRt (z : ZoneId) (r : ZoneRt) (s : State) : State := { s with zones := store s.zones z r }

/-- The runtime fields of an exit (R39). -/
def exitOf (s : State) (e : ExitId) : ExitRt := look s.exits e

/-- The part with the runtime fields of one exit replaced. -/
def setExitRt (e : ExitId) (r : ExitRt) (s : State) : State := { s with exits := store s.exits e r }

/-- The route record of a point in the published table (R46). -/
def routeOf (s : State) (p : PointId) : Route := look s.engine.table p

/-- The desired display of a head (R71). -/
def desiredOf (s : State) (h : HeadId) : Option Display := look s.selector.desired h

/-- The part with the desired display of one head replaced. -/
def setDesired (h : HeadId) (d : Option Display) (s : State) : State :=
  { s with selector := { s.selector with desired := store s.selector.desired h d } }

/-- The placement of a head index (R8). -/
def placementOf (s : State) (h : HeadId) : Placement := look s.map.placements h

/-- Routes are computed in GUARD and ALARM (R44, R70). -/
def routing (s : State) : Bool := s.mode == .guard || s.mode == .alarm

/-- The mode class is *alarm* in ALARM and *steady* otherwise (4.2). -/
def alarmClass (s : State) : Bool := s.mode == .alarm

/-- SOLO, DUTY and YIELDING permit driving of the sign bus (R99, Table 8.2). -/
def mayDrive (s : State) : Bool := s.pair.state == .solo || s.pair.state == .duty || s.pair.state == .yielding

/-- RESERVE, CLAIMING and ISOLATED observe the sign bus (8.4). -/
def observes (s : State) : Bool := s.pair.state == .reserve || s.pair.state == .claiming || s.pair.state == .isolated

end Sys2Proof.Machine
end

