-- ==== Sys2Proof/Machine/Operands.lean ====
section
/-! DEFINITION. The fields of frames as values and back: the codes of Table 11.1, script steps (R174), displays, fault
masks, and the frames of the sign bus (R173). -/

namespace Sys2Proof.Machine

/-! ## Codes (Table 11.1) -/

/-- Mode code. -/
def modeCode : Mode → Byte
  | .setup => 0
  | .validating => 1
  | .guard => 2
  | .alarm => 3

/-- Pair state code. -/
def pairStateCode : PairState → Byte
  | .solo => 0
  | .reserve => 1
  | .claiming => 2
  | .duty => 3
  | .yielding => 4
  | .isolated => 5

/-- Head state code. -/
def headStateCode : HeadState → Byte
  | .absent => 0
  | .joining => 1
  | .loading => 2
  | .serving => 3
  | .recovering => 4
  | .failed => 5

/-- Display kind code. -/
def displayKindCode : DisplayKind → Byte
  | .standby => 0
  | .route => 1
  | .routeSmoke => 2
  | .exitHere => 3
  | .noRoute => 4

/-- Display kind of a code. -/
def displayKindOf (b : Byte) : Option DisplayKind :=
  match b.toNat with
  | 0 => some .standby
  | 1 => some .route
  | 2 => some .routeSmoke
  | 3 => some .exitHere
  | 4 => some .noRoute
  | _ => none

/-- Point kind of a code. -/
def pointKindOf (b : Byte) : Option PointKind :=
  match b.toNat with
  | 0 => some .junction
  | 1 => some .exit
  | _ => none

/-- Point kind code. -/
def pointKindCode : PointKind → Byte
  | .junction => 0
  | .exit => 1

/-- Passage of a code. -/
def passageOf (b : Byte) : Option Passage :=
  match b.toNat with
  | 0 => some .both
  | 1 => some .aToB
  | 2 => some .bToA
  | _ => none

/-- Override of a code. -/
def overrideOf (b : Byte) : Option Override :=
  match b.toNat with
  | 0 => some .auto
  | 1 => some .forcedOpen
  | 2 => some .forcedClosed
  | _ => none

/-- Override code. -/
def overrideCode : Override → Byte
  | .auto => 0
  | .forcedOpen => 1
  | .forcedClosed => 2

/-- A flag field: 0 clear, 1 set; another value has no meaning (R171, log 17). -/
def flagOf (b : Byte) : Option Bool :=
  match b.toNat with
  | 0 => some false
  | 1 => some true
  | _ => none

/-- Action of a code: DEFINE is `true`, REMOVE `false`. -/
def actionOf (b : Byte) : Option Bool := flagOf b

/-- Reject reason code; 0xFF for none. -/
def rejectCode : Option RejectReason → Byte
  | some .format => 0
  | some .scriptMissing => 1
  | some .noRoom => 2
  | some .other => 3
  | none => 0xFF

/-- Reject reason of a code. A code that Table 11.1 does not list is taken as OTHER, "any other refusal" (log 16). -/
def rejectOf (b : Byte) : RejectReason :=
  match b.toNat with
  | 0 => .format
  | 1 => .scriptMissing
  | 2 => .noRoom
  | _ => .other

/-- Reply code as sent. -/
def replyByte : ReplyCode → Byte
  | .done => 0
  | .clamped => 1
  | .wrongMode => 2
  | .badIndex => 3
  | .badValue => 4
  | .inService => 5
  | .busy => 6
  | .notPaired => 7
  | .zonesActive => 8
  | .badLength => 9
  | .unknownType => 10

/-- Zone state code. -/
def zoneStateCode : ZoneState → Byte
  | .clear => 0
  | .suspect => 1
  | .smoke => 2
  | .clearing => 3
  | .silent => 4

/-- ZONE notice cause code. -/
def zoneCauseCode : ZoneCause → Byte
  | .reading => 0
  | .confirmExpiry => 1
  | .clearHoldExpiry => 2
  | .silenceExpiry => 3
  | .confirmZone => 4

/-- MODE notice cause code. -/
def modeCauseCode : ModeCause → Byte
  | .hardReset => 0
  | .arm => 1
  | .passed => 2
  | .failed => 3
  | .cancelled => 4
  | .disarm => 5
  | .alarm => 6
  | .autoAlarm => 7
  | .standDown => 8
  | .restart => 9

/-- HEAD notice cause code (Table 11.4). -/
def headCauseCode : HeadCause → Byte
  | .enrolFault => 0
  | .announcedWhileFailed => 1
  | .loaded => 2
  | .resynced => 3
  | .reject => 4
  | .noReply => 5
  | .waitLimit => 6

/-- PAIR notice cause code. -/
def pairCauseCode : PairCause → Byte
  | .partnerStuck => 0
  | .claimWithdrawn => 1
  | .conflict => 2
  | .takeover => 3
  | .yielded => 4
  | .isolated => 5
  | .digestMismatch => 6
  | .partnerLost => 7

/-- Failure table code. -/
def failTableCode : FailTable → Byte
  | .none => 0
  | .point => 1
  | .aisle => 2
  | .exit => 3
  | .placement => 4
  | .kindMap => 5

/-- Contact state code. -/
def contactCode : ExitContact → Byte
  | .unknown => 0
  | .made => 1
  | .broken => 2
  | .none => 3

/-- Route status code. -/
def routeStatusCode : RouteStatus → Byte
  | .undefined => 0
  | .noRoute => 1
  | .routed => 2
  | .exitHere => 3

/-- Run state code (Table 11.4). -/
def runStateCode : RunState → Byte
  | .idle => 0
  | .sweeping => 1
  | .selecting => 2
  | .publishing => 3

/-- Role code. -/
def roleCode : Role → Byte
  | .a => 0
  | .b => 1

/-- An index field that may be absent: 0xFF for absent (R171). -/
def optionalIndexCode {n : Nat} : Option (Fin n) → Byte
  | some i => natByte i.val
  | none => 0xFF

/-- A zone field of a request: a zone index, or 0xFF for absent; `none` where it is out of range (R1, R171). -/
def zoneField (b : Byte) : Option (Option ZoneId) :=
  if b = 0xFF then some none else (indexOf 64 b.toNat).map some

/-- The contact field of SET EXIT: a row and a column in range, or both 0xFF for absent (R6, R172). -/
def contactField (row column : Byte) : Option (Option Position) :=
  if row = 0xFF ∧ column = 0xFF then some none
  else
    match indexOf 4 row.toNat, indexOf 8 column.toNat with
    | some r, some c => some (some { row := r, column := c })
    | _, _ => none

/-- The row-major position number 8 × row + column (R35). -/
def Position.number (p : Position) : PositionId := ⟨8 * p.row.val + p.column.val, by omega⟩

/-! ## Displays and fault masks (Table 11.1) -/

/-- A display as sent: kind, arrow, script, phase. -/
def displayBytes (d : Display) : List Byte :=
  [displayKindCode d.kind, optionalIndexCode d.arrow, natByte d.script.val, natByte d.phase.val]

/-- The arrow of a display field: 0 to 7, or 0xFF for NONE. -/
def arrowField (b : Byte) : Option (Option ArrowId) :=
  if b = 0xFF then some none else (indexOf 8 b.toNat).map some

/-- The display of four bytes, where each has a meaning. -/
def displayOf (kind arrow script phase : Byte) : Option Display :=
  match displayKindOf kind, arrowField arrow, indexOf 13 script.toNat, indexOf 64 phase.toNat with
  | some k, some a, some sc, some p => some { kind := k, arrow := a, script := sc, phase := p }
  | _, _, _, _ => none

/-- A fault mask as sent: the glyph fault in bit 0 and the *no generation* mark in bit 7 of the first byte, the arrows in
the second (Table 11.1, log 13). Bits 1 to 6 of the first byte, which the rules give no value, are sent as 0: the model's
choice, log 47. -/
def maskBytes (noGeneration : Bool) (m : SegMask) : List Byte :=
  [(if noGeneration then 0x80 else 0) ||| flagCode m.glyph, m.arrows]

/-! ## Script steps (R174) -/

/-- The two bytes of a step (Table 11.6). Bits 5 and 4 of a LIGHT step's first byte and bit 5 of a LOOP step's, which have
no field, are sent as 0: the model's choice, log 46. -/
def stepCode : ScriptStep → Half
  | .light arrow glyph hold => halfOf (natByte hold) (natByte (16 * arrow + glyph))
  | .loop target count => halfOf (natByte (64 + target)) (natByte count)
  | .finish => 0x8000

/-- The step of two bytes; type 3 is unknown. Bits that Table 11.6 marks 0 are not checked (R174), and neither are bits 5
and 4 of a LIGHT step's first byte and bit 5 of a LOOP step's, which have no field: the model's choice, log 46. -/
def stepOf (w : Half) : Option ScriptStep :=
  let first := (hiByte w).toNat
  let second := (loByte w).toNat
  match first / 64 with
  | 0 => some (.light (second / 16) (second % 16) (first % 16))
  | 1 => some (.loop (first % 32) second)
  | 2 => some .finish
  | _ => none

/-- Bytes taken two at a time; an odd last byte is left out. -/
def halvesOf : List Byte → List Half
  | hi :: lo :: rest => halfOf hi lo :: halvesOf rest
  | _ => []

/-- The steps of a SET SCRIPT payload, where every type is known. -/
def stepsOf (bytes : List Byte) : Option (List ScriptStep) := (halvesOf bytes).mapM stepOf

/-! ## Sign bus frames (R173) -/

/-- A sign bus frame with its CRC (R173, R175). -/
def sealFrame (address kind : Byte) (payload : List Byte) : BusFrame :=
  { address := address, kind := kind, payload := payload, crc := crc16 (address :: kind :: payload) }

/-- The CRC of a sign bus frame is the one computed over its other bytes (R175). -/
def crcOk (f : BusFrame) : Bool := f.crc == crc16 f.body

/-- The kind byte of a command (Table 11.5). -/
def commandKind : BusCommand → Byte
  | .beat _ _ => 0x01
  | .releaseAll _ _ => 0x02
  | .invite _ => 0x03
  | .query _ _ _ => 0x04
  | .assign _ => 0x10
  | .script _ _ _ _ => 0x11
  | .display _ => 0x12
  | .resync _ _ _ _ => 0x13
  | .test => 0x14
  | .poll => 0x15

/-- The payload of a command (Table 11.5). -/
def commandPayload : BusCommand → List Byte
  | .beat b c => [b, c]
  | .releaseAll b c => [b, c]
  | .invite c => [flagCode c]
  | .query d m b => halfBytes d ++ [m, b]
  | .assign s => serialBytes s
  | .script g sc b steps => g :: sc :: b :: natByte steps.length :: steps.flatMap halfBytes
  | .display d => displayBytes d
  | .resync s a g d => serialBytes s ++ a :: g :: displayBytes d
  | .test => []
  | .poll => []

/-- A command as a frame of the sign bus (R173). -/
def commandFrame (address : Byte) (c : BusCommand) : BusFrame := sealFrame address (commandKind c) (commandPayload c)

/-- The kinds of command frames (Table 11.5). -/
def isCommandKind (kind : Byte) : Bool := (1 ≤ kind.toNat && kind.toNat ≤ 4) || (0x10 ≤ kind.toNat && kind.toNat ≤ 0x15)

/-- The command that an observed frame carries, by Table 11.5: its kind and length are in the table, and the codes of its
display or contention flag have a meaning. A mode class above 1, a script above 12, a block above 1 or a script 0 with steps
does not keep a frame from being taken: the model's choice, log 18. -/
def commandOf (f : BusFrame) : Option BusCommand :=
  match f.kind.toNat, f.payload with
  | 0x01, [b, c] => some (.beat b c)
  | 0x02, [b, c] => some (.releaseAll b c)
  | 0x03, [c] => (flagOf c).map .invite
  | 0x04, [dh, dl, m, b] => some (.query (halfOf dh dl) m b)
  | 0x10, [s3, s2, s1, s0] => some (.assign (serialOf s3 s2 s1 s0))
  | 0x11, g :: sc :: b :: n :: steps =>
    if n.toNat ≤ Config.blockSteps ∧ steps.length = 2 * n.toNat then some (.script g sc b (halvesOf steps)) else none
  | 0x12, [k, a, sc, p] => (displayOf k a sc p).map .display
  | 0x13, [s3, s2, s1, s0, addr, g, k, a, sc, p] =>
    (displayOf k a sc p).map (.resync (serialOf s3 s2 s1 s0) addr g)
  | 0x14, [] => some .test
  | 0x15, [] => some .poll
  | _, _ => none

/-- What an ACK to DISPLAY, POLL, RESYNC or TEST carries (R112). -/
structure AckStatus where
  mask : SegMask
  generation : Option Byte
  deriving DecidableEq, Repr

/-- A valid reply (R100, Table 11.5). -/
inductive Reply
  /-- ACK to ASSIGN or SCRIPT. -/
  | ack
  /-- ACK to DISPLAY, POLL, RESYNC or TEST. -/
  | ackStatus (st : AckStatus)
  | wait
  | reject (r : RejectReason)
  | announcement (serial : Serial) (abilities : Abilities)
  | partner (digest : Half) (mode state : Byte)
  deriving DecidableEq, Repr

/-- The class of a reply window (R100). -/
inductive WindowClass
  | silent | garbled
  | valid (r : Reply)
  deriving DecidableEq, Repr

/-- The status of an ACK: glyph fault in bit 0 and *no generation* in bit 7 of the first byte, the arrows in the second,
then the generation (Table 11.1, R173). Bits 1 to 6 of the first byte, and the generation byte beside the mark, are not
read, and the ACK is valid whatever they are: the model's choice, log 38. -/
def ackStatusOf (first arrows generation : Byte) : AckStatus :=
  { mask := { glyph := first.getLsbD 0, arrows := arrows }
    generation := if first.getLsbD 7 then none else some generation }

/-- The reply that a frame is, where the command admits its kind and Table 11.5 its length (R100, R173). -/
def replyOf (c : BusCommand) (f : BusFrame) : Option Reply :=
  match c with
  | .beat _ _ => none
  | .releaseAll _ _ => none
  | .invite _ =>
    match f.kind.toNat, f.payload with
    | 0x83, [s3, s2, s1, s0, level, arrows, capacity] =>
      some (.announcement (serialOf s3 s2 s1 s0) { level := level, arrows := arrows, capacity := capacity })
    | _, _ => none
  | .query _ _ _ =>
    match f.kind.toNat, f.payload with
    | 0x84, [dh, dl, m, p] => some (.partner (halfOf dh dl) m p)
    | _, _ => none
  | .assign _ | .script _ _ _ _ =>
    match f.kind.toNat, f.payload with
    | 0x80, [] => some .ack
    | 0x81, [] => some .wait
    | 0x82, [r] => some (.reject (rejectOf r))
    | _, _ => none
  | .display _ | .resync _ _ _ _ | .test | .poll =>
    match f.kind.toNat, f.payload with
    | 0x80, [first, arrows, generation] => some (.ackStatus (ackStatusOf first arrows generation))
    | 0x81, [] => some .wait
    | 0x82, [r] => some (.reject (rejectOf r))
    | _, _ => none

/-- The class of a reply window after a command to an address: valid where the first frame of the window has a correct
CRC, the address of the command, and a kind and length that the command admits (R100). -/
def classify (address : Byte) (c : BusCommand) : Window → WindowClass
  | .idle => .silent
  | .disturbed => .garbled
  | .frame f =>
    if crcOk f ∧ f.address = address then
      match replyOf c f with
      | some r => .valid r
      | none => .garbled
    else .garbled

/-- The sign bus address of a head: head index + 1 (R8). -/
def headAddress (h : HeadId) : Byte := natByte (h.val + 1)

/-- The head whose address an observed frame has (R144). -/
def headOfAddress (a : Byte) : Option HeadId := if a = 0 then none else indexOf 64 (a.toNat - 1)

end Sys2Proof.Machine
end

