-- ==== Sys2Proof/Machine/Flags.lean ====
section
/-! DEFINITION. Notices, the notice queue and the link flags (10.6), and the transmitter's choice of the next frame
(10.7). -/

namespace Sys2Proof.Machine

/-- The notice kind (R172): MODE 0, ZONE 1, EXIT 2, ROUTES 3, HEAD 4, STRANGER 5, TEST 6, PAIR 7. -/
def noticeKind : Notice → Fin 8
  | .mode .. => 0
  | .zone .. => 1
  | .exit .. => 2
  | .routes .. => 3
  | .head .. => 4
  | .stranger .. => 5
  | .test .. => 6
  | .pair .. => 7

/-- A failure record as sent: check, table, index; zeros where there is none (Table 11.4). -/
def failureBytes : Option Failure → List Byte
  | some f => natByte f.check :: failTableCode f.table :: natHalf f.index
  | none => [0, 0, 0, 0]

/-- A last reading as sent: 0 to 255, or 0xFFFF for absent (Table 11.4). -/
def readingBytes : Option Byte → List Byte
  | some l => [0, l]
  | none => [0xFF, 0xFF]

/-- A partner report as sent: digest, mode, pair state; 0, 0xFF, 0xFF where it is absent (Table 11.4, Table 11.1). -/
def reportBytes : Option PartnerReport → List Byte
  | some r => halfBytes r.digest ++ [r.mode, r.state]
  | none => [0, 0, 0xFF, 0xFF]

/-- The payload of a notice (Table 11.4). A HEAD notice has no field for the announced level and capacity of R119
(log 15). -/
def noticePayload : Notice → List Byte
  | .mode previous new cause outcome zone =>
    [match previous with | some m => modeCode m | none => 0xFF, modeCode new, modeCauseCode cause,
      match outcome with | .none => 0 | .passed => 1 | .failed _ => 2 | .cancelled => 3]
      ++ failureBytes (match outcome with | .failed f => some f | _ => none) ++ [optionalIndexCode zone]
  | .zone z previous new last cause =>
    [natByte z.val, zoneStateCode previous, zoneStateCode new] ++ readingBytes last ++ [zoneCauseCode cause]
  | .exit e available override contact zone =>
    [natByte e.val, flagCode available, overrideCode override, contactCode contact,
      match zone with | some z => zoneStateCode z | none => 0xFF]
  | .routes routed exitHere noRoute smoke changed abandons digest =>
    [natByte routed, natByte exitHere, natByte noRoute, natByte smoke, natByte changed, natByte abandons]
      ++ halfBytes digest
  | .head h serial previous new cause faults reject _ =>
    [optionalIndexCode h] ++ serialBytes serial
      ++ [match previous with | some st => headStateCode st | none => 0xFF,
        match new with | some st => headStateCode st | none => 0xFF, headCauseCode cause]
      ++ natHalf faults ++ [rejectCode reject]
  | .stranger serial ab entries dropped =>
    serialBytes serial ++ [ab.level, ab.arrows, ab.capacity, natByte entries, flagCode dropped]
  | .test h result =>
    match result with
    | some r => [natByte h.val, 0] ++ maskBytes r.noGeneration r.mask ++ [r.announced]
    | none => [natByte h.val, 1, 0, 0, 0]
  | .pair cause before after role digest report =>
    [pairCauseCode cause, pairStateCode before, pairStateCode after, roleCode role] ++ halfBytes digest
      ++ reportBytes report

/-- A notice as a frame: type 0xC0 + kind, tag 0 (R172). -/
def noticeFrame (n : Notice) : PanelFrame :=
  { type := 0xC0 + natByte (noticeKind n).val, tag := 0, payload := noticePayload n }

/-- A frame begun on the line (R169). -/
def sendingOf (f : PanelFrame) : Sending := { frame := f, bytes := f.lineBytes }

/-- The choice of a free transmitter (R169): the reply in the reply slot; nothing while a request is in service; else
the first queued notice. -/
def beginNext (l : Link) : Link :=
  match l.sending with
  | some _ => l
  | none =>
    match l.reply with
    | some r => { l with sending := some (sendingOf r), reply := none }
    | none =>
      if l.serving then l
      else
        match l.notices with
        | n :: rest => { l with sending := some (sendingOf (noticeFrame n)), notices := rest }
        | [] => l

/-- A kind is masked in the notice filter (R167). -/
def masked (l : Link) (n : Notice) : Bool := l.filter.getLsbD (noticeKind n).val

/-- What the panel link does with an offered notice (R167), then the transmitter if it is free (R169). -/
def offerLink (n : Notice) (l : Link) : Link :=
  if masked l n then l
  else if Config.noticeCapacity ≤ l.notices.length then { l with lossMark := true }
  else beginNext { l with notices := l.notices ++ [n] }

/-- A block offers a notice (R167). -/
def offer (n : Notice) (s : State) : State := { s with link := offerLink n s.link }

/-- Sets the frame discarded flag (R162). -/
def discardFrame (s : State) : State := { s with link := { s.link with discarded := true } }

/-! ## Service of a request (10.3, 10.4) -/

/-- What the service of a request gives: the reply code, the data of a query answered DONE, and the part after it. -/
structure Served where
  code : ReplyCode
  data : List Byte
  state : State
  deriving DecidableEq, Repr

/-- A request taken as the code says, with the part after it. -/
def taken (code : ReplyCode) (s : State) : Served := { code := code, data := [], state := s }

/-- A refused request changes nothing (R164). -/
def refuse (code : ReplyCode) (s : State) : Served := { code := code, data := [], state := s }

/-- A query answered with its data (R165). -/
def answer (data : List Byte) (s : State) : Served := { code := .done, data := data, state := s }

/-- The type of a reply: the request's type plus 0x80, or 0x80 for UNKNOWN_TYPE (R172). -/
def replyType (type : Byte) (code : ReplyCode) : Byte := if code = .unknownType then 0x80 else type + 0x80

/-- The four bytes that begin a reply payload: code, mode, pair state, link flags (R165, R172). Bits 2 to 7 of the link
flags, which the rules give no value, are sent as 0: the model's choice, log 47. -/
def summaryBytes (code : ReplyCode) (s : State) : List Byte :=
  [replyByte code, modeCode s.mode, pairStateCode s.pair.state,
    (if s.link.lossMark then 1 else 0) ||| (if s.link.discarded then 2 else 0)]

/-- The reply to a request (R165): no query data with any code but DONE. -/
def replyFrame (r : PanelFrame) (v : Served) : PanelFrame :=
  { type := replyType r.type v.code
    tag := r.tag
    payload := summaryBytes v.code v.state ++ (if v.code = .done then v.data else []) }

/-- The reply is formed and placed in the reply slot; the frame discarded flag it reports is cleared in the same step;
service ends, and a free transmitter begins the reply (R165, R163, R169). -/
def formReply (r : PanelFrame) (v : Served) : State :=
  { v.state with
    link := beginNext { v.state.link with reply := some (replyFrame r v), discarded := false, serving := false } }

/-- Service of one request (R163): a request in service keeps the transmitter from beginning a notice (R169). -/
def serveWith (r : PanelFrame) (act : State → Served) (s : State) : State :=
  formReply r (act { s with link := { s.link with serving := true } })

/-- A complete request that has to wait joins the receive buffer, or is discarded where 2 wait (R163). -/
def bufferRequest (r : PanelFrame) (s : State) : State :=
  if s.link.buffer.length < Config.bufferCapacity then
    { s with link := { s.link with buffer := s.link.buffer ++ [r] } }
  else discardFrame s

/-- A request is served at once when the reply slot is empty and none waits before it (R163). -/
def readyToServe (s : State) : Bool := s.link.reply.isNone && s.link.buffer.isEmpty

/-- A whole request reaches the receive buffer: it is served at once, or waits, or is discarded (R163, log 1). -/
def takeRequest (r : PanelFrame) (act : State → Served) (s : State) : State :=
  if readyToServe s then serveWith r act s else bufferRequest r s

end Sys2Proof.Machine
end

