-- ==== Sys2Proof/Machine/Queue.lean ====
section
/-! DEFINITION. The update queue (section 5): joining, replacement, withdrawal, selection and completion. -/

namespace Sys2Proof.Machine

/-- The entry of a head, if it has one (R88). -/
def entryOf (q : List Entry) (h : HeadId) : Option Entry := q.find? fun e => e.head == h

/-- The queue without a head's entry (R96). -/
def withoutHead (h : HeadId) (q : List Entry) : List Entry := q.filter fun e => e.head != h

/-- A head's entry changed in place (R90, R91). -/
def mapEntry (h : HeadId) (f : Entry → Entry) (q : List Entry) : List Entry :=
  q.map fun e => if e.head = h then f e else e

/-- An entry joins its section at the tail: the URGENT section stands before the ORDINARY one (R88). -/
def joinQueue (e : Entry) (q : List Entry) : List Entry :=
  if e.urgent then (q.filter fun x => x.urgent) ++ e :: (q.filter fun x => !x.urgent) else q ++ [e]

/-- The class of a display against a confirmed display (R89): URGENT where there is none, or kind or arrow differ. -/
def isUrgent (confirmed : Option Display) (d : Display) : Bool :=
  match confirmed with
  | none => true
  | some c => c.kind != d.kind || c.arrow != d.arrow

/-- A new entry for a head, held clear (R90). -/
def newEntry (h : HeadId) (confirmed : Option Display) (d : Display) : Entry :=
  { head := h, display := d, urgent := isUrgent confirmed d, held := false }

/-- A new desired display reaches the queue (R90). -/
def queueDisplay (h : HeadId) (confirmed : Option Display) (d : Display) (q : List Entry) : List Entry :=
  if confirmed = some d then withoutHead h q
  else
    match entryOf q h with
    | none => joinQueue (newEntry h confirmed d) q
    | some e =>
      if isUrgent confirmed d && !e.urgent then
        joinQueue { e with display := d, urgent := true } (withoutHead h q)
      else mapEntry h (fun e => { e with display := d }) q

/-- The queue after an acknowledgement of display d, the confirmed display being d already (R93, steps 2 to 5; R95). -/
def queueAck (h : HeadId) (d : Display) (desired : Option Display) (q : List Entry) : List Entry :=
  match entryOf q h with
  | some e => if e.display = d then withoutHead h q else q
  | none =>
    match desired with
    | some w => if w = d then q else joinQueue (newEntry h (some d) w) q
    | none => q

/-- A WAIT to a DISPLAY sets the held mark of the entry, if it still exists (R91, R94). -/
def holdEntry (h : HeadId) (q : List Entry) : List Entry := mapEntry h (fun e => { e with held := true }) q

/-- The start of a sign bus frame clears every held mark (R91). -/
def clearHeld (q : List Entry) : List Entry := q.map fun e => { e with held := false }

/-- The entry an UPDATE slot takes: the first whose head is SERVING and whose held mark is clear (R92). -/
def eligibleEntry (s : State) : Option Entry :=
  s.queue.find? fun e => (headOf s e.head).state == .serving && !e.held

/-- The numbers of URGENT and ORDINARY entries (R98). -/
def urgentCount (q : List Entry) : Nat := q.countP fun e => e.urgent
/-- The number of ORDINARY entries (R98). -/
def ordinaryCount (q : List Entry) : Nat := q.countP fun e => !e.urgent

/-- The position of a head's entry, counted from 1; 0 where it has none (R98, Table 11.4). -/
def queuePosition (q : List Entry) (h : HeadId) : Nat :=
  match q.findIdx? fun e => e.head == h with
  | some i => i + 1
  | none => 0

end Sys2Proof.Machine
end

