-- ==== Sys2Proof/Machine/Displays.lean ====
section
/-! DEFINITION. The display selector (section 4): kind, arrow, script and phase of a head's display, and recomputation. -/

namespace Sys2Proof.Machine

/-! ## Kind (R72) -/

/-- The kind of a head's display: the first row of Table 4.2 that applies. -/
def kindFor (mode : Mode) (r : Route) : DisplayKind :=
  if mode = .setup ∨ mode = .validating then .standby
  else
    match r.status with
    | .exitHere => .exitHere
    | .noRoute => .noRoute
    | .undefined => .noRoute
    | .routed =>
      match r.best with
      | some b => if b.smoke = 0 then .route else .routeSmoke
      | none => .route

/-! ## Arrow (R73, R74) -/

/-- The bearing of an aisle as it leaves a point (R73). -/
def leavingBearing (a : Aisle) (p : PointId) : Nat :=
  if a.endA = p then a.bearing.val else (a.bearing.val + 8) % 16

/-- The bearing relative to a facing (R73). -/
def relativeBearing (leaving : Nat) (facing : Bearing) : Nat := (leaving + 16 - facing.val) % 16

/-- Circular distance on the 0 to 15 scale (R73). -/
def circularDistance (x y : Nat) : Nat := min ((x + 16 - y) % 16) ((y + 16 - x) % 16)

/-- The right-hand arrows, k = 1 to 3 (4.1). -/
def rightHand (k : ArrowId) : Bool := 1 ≤ k.val && k.val ≤ 3

/-- How an arrow ranks for a relative bearing, the least first: distance from r, then distance from ahead, then the
right-hand arrow (R74). -/
def arrowRank (r : Nat) (k : ArrowId) : Nat :=
  circularDistance r (2 * k.val) * 32 + circularDistance (2 * k.val) 0 * 2 + (if rightHand k then 0 else 1)

/-- The usable set: announced and not faulty (R74). -/
def usableArrows (announced faulty : Byte) : List ArrowId :=
  (List.finRange 8).filter fun k => announced.getLsbD k.val && !faulty.getLsbD k.val

/-- The arrow of the usable set with the least rank, or NONE (R74). -/
def chooseArrow (r : Nat) (usable : List ArrowId) : Option ArrowId :=
  usable.foldl
    (fun best k =>
      match best with
      | none => some k
      | some b => if arrowRank r k < arrowRank r b then some k else some b)
    none

/-- The announced arrow mask; none of the arrows where no abilities are held. -/
def announcedArrows (r : Head) : Byte := match r.abilities with | some a => a.arrows | none => 0

/-- The script capacity of a head; 0 where no abilities are held. -/
def capacityOf (r : Head) : Nat := match r.abilities with | some a => a.capacity.toNat | none => 0

/-- The arrow for the next aisle of a route (R73 to R75). -/
def arrowFor (s : State) (h : HeadId) (r : Route) : Option ArrowId :=
  match r.next with
  | some x =>
    let pl := placementOf s h
    let rec' := headOf s h
    chooseArrow (relativeBearing (leavingBearing (look s.map.aisles x) pl.point) pl.facing)
      (usableArrows (announcedArrows rec') rec'.faultMask.arrows)
  | none => none

/-! ## Script (R76, R78) -/

/-- The kind map entry of a kind and mode class (Table 4.4). -/
def kindMapEntry (k : DisplayKind) (alarm : Bool) : Fin 10 :=
  match k, alarm with
  | .standby, false => 0
  | .standby, true => 1
  | .route, false => 2
  | .route, true => 3
  | .routeSmoke, false => 4
  | .routeSmoke, true => 5
  | .exitHere, false => 6
  | .exitHere, true => 7
  | .noRoute, false => 8
  | .noRoute, true => 9

/-- The steps of script n of the library, n from 1 to 12 (R82). -/
def scriptOf (sel : Selector) (n : ScriptId) : Option (List ScriptStep) :=
  match indexOf 12 (n.val - 1) with
  | some i => if n.val = 0 then none else look sel.library i
  | none => none

/-- The script of a display: the kind map's, or 0 where it is undefined or longer than the head's capacity (R78). -/
def scriptFor (s : State) (h : HeadId) (k : DisplayKind) : ScriptId :=
  let n := look s.selector.kindMap (kindMapEntry k (alarmClass s))
  match scriptOf s.selector n with
  | some steps => if steps.length ≤ capacityOf (headOf s h) then n else 0
  | none => 0

/-! ## Phase (R79) -/

/-- floor(c / PHASE_UNIT) mod 64 (R79). -/
def phaseFor (s : State) (r : Route) : Fin 64 :=
  match r.best with
  | some b => Fin.ofNat 64 (b.walk / s.timing.phaseUnit)
  | none => 0

/-! ## The display of a head, and recomputation (R80, R81) -/

/-- The desired display of a head from the state as it stands (R72 to R79). -/
def displayFor (s : State) (h : HeadId) : Display :=
  let r := routeOf s (placementOf s h).point
  let k := kindFor s.mode r
  let onward := k = .route ∨ k = .routeSmoke
  { kind := k
    arrow := if onward then arrowFor s h r else none
    script := scriptFor s h k
    phase := if onward then phaseFor s r else 0 }

/-- A head's display is computed: a display that differs from the one before, or the first, becomes the desired display
and is handed to the update queue (R81, R90). -/
def refreshHead (h : HeadId) (s : State) : State :=
  let d := displayFor s h
  if desiredOf s h = some d then s
  else
    setDesired h (some d) { s with queue := queueDisplay h (headOf s h).confirmed d s.queue }

/-- Recomputation of every head that has a desired display, in ascending head index (R80, R81). -/
def recomputeAll (s : State) : State :=
  forEach 64 (fun h s => if (desiredOf s h).isSome then refreshHead h s else s) s

/-- The heads whose desired display a recomputation of all would change (R81). -/
def changedHeads (s : State) : Nat :=
  countIndex 64 fun h => (desiredOf s h).isSome && desiredOf s h != some (displayFor s h)

end Sys2Proof.Machine
end

