-- ==== Sys2Proof/Machine/Routes.lean ====
section
/-! DEFINITION. The route engine (section 3): snapshots, step pairs, sweeps, selection, digest, and the life of a run.
Publication, which recomputes displays, is in Machine/Publication.lean. -/

namespace Sys2Proof.Machine

/-! ## Pairs (R50, R51) -/

/-- Pair order: smoke length first, then walk cost (R51). -/
def Pair.better (a b : Pair) : Bool := a.smoke < b.smoke || (a.smoke == b.smoke && a.walk < b.walk)

/-- Every pair is better than UNREACHABLE (R51). -/
def Pair.betterThan (a : Pair) : Option Pair → Bool
  | some b => a.better b
  | none => true

/-- Component sum of two pairs (R51). -/
def Pair.add (a b : Pair) : Pair := { smoke := a.smoke + b.smoke, walk := a.walk + b.walk }

/-- Width multiplier m (Table 3.3). -/
def widthFactor (width : Nat) : Nat :=
  match width with
  | 1 => 16
  | 2 => 12
  | 3 => 10
  | _ => 8

/-- Walk cost ceil(L × m / 8) (R50). -/
def walkCost (length width : Nat) : Nat := (length * widthFactor width + 7) / 8

/-- Step pair by hazard class (Table 3.4). -/
def stepPair (length width : Nat) (hazard : Hazard) : Pair :=
  match hazard with
  | .clear => { smoke := 0, walk := walkCost length width }
  | .silent => { smoke := 0, walk := walkCost length width + length }
  | .suspect => { smoke := 0, walk := walkCost length width + 2 * length }
  | .smoke => { smoke := length, walk := walkCost length width }

/-! ## Snapshot (R49) -/

/-- Hazard class of a zone state (R49). -/
def hazardOfState : ZoneState → Hazard
  | .clear => .clear
  | .suspect => .suspect
  | .silent => .silent
  | .smoke => .smoke
  | .clearing => .smoke

/-- Hazard class of an aisle from the state of its zone (R49). -/
def hazardOf (s : State) (a : Aisle) : Hazard :=
  match a.zone with
  | some z => hazardOfState (zoneOf s z).state
  | none => .clear

/-- What the snapshot takes of one aisle (R49). -/
def snapAisle (s : State) (x : AisleId) : SnapAisle :=
  let a := look s.map.aisles x
  { usable := a.defined && !a.blocked, passage := a.passage, hazard := hazardOf s a }

/-- The source pair of an exit: (0, runtime bias) where it is defined and AVAILABLE (R49). -/
def sourcePair (s : State) (e : ExitId) : Option Pair :=
  if (look s.map.exits e).defined && (exitOf s e).available then some { smoke := 0, walk := (exitOf s e).bias } else none

/-- The inputs of a run as they stand (R49). -/
def takeSnapshot (s : State) : Snapshot :=
  { aisles := tabulate 480 (snapAisle s)
    sources := tabulate 24 (sourcePair s)
    hystAbs := s.timing.hystAbs
    hystPct := s.timing.hystPct }

/-- Working pairs at the start of a run: each source pair at the point of its exit, every other point UNREACHABLE (R52). -/
def initialPairs (map : MapStore) (sn : Snapshot) : Pairs :=
  forEach 24
    (fun e pairs =>
      match look sn.sources e with
      | some p => store pairs (look map.exits e).point (some p)
      | none => pairs)
    (Vector.replicate 240 none)

/-- The start of a run (R63): snapshot, pending flag and abandon mark cleared, firm mark from the abandon count, working
pairs initialised, sweep 1. -/
def startRun (s : State) : State :=
  let sn := takeSnapshot s
  { s with
    engine :=
      { s.engine with
        run := .sweeping
        snapshot := some sn
        pairs := initialPairs s.map sn
        sweep := 1
        changeMark := false
        abandonMark := false
        firmMark := s.engine.abandonCount == Config.firmCount
        pendingFlag := false
        newTable := none } }

/-! ## Changes handed to the engine (R44, R63, R64) -/

/-- Class of a route-affecting change (R44). -/
inductive ChangeClass
  | tightening | loosening
  deriving DecidableEq, Repr

/-- A change handed over while a run is in progress (Table 3.6). -/
def markChange (c : ChangeClass) (e : Engine) : Engine :=
  match e.run, c with
  | .publishing, _ => { e with pendingFlag := true }
  | _, .loosening => { e with pendingFlag := true }
  | _, .tightening => if e.firmMark then { e with pendingFlag := true } else { e with abandonMark := true }

/-- A route-affecting change is handed over in GUARD and ALARM: an IDLE engine starts a run, a busy one takes the change
by Table 3.6 (R44, R63, R64). -/
def handChange (c : ChangeClass) (s : State) : State :=
  if routing s then
    if s.engine.run = .idle then startRun s else { s with engine := markChange c s.engine }
  else s

/-! ## Sweeps (R53) -/

/-- Relaxing v from u across a step pair: the candidate replaces a worse working pair of v (R53). -/
def relax (step : Pair) (v u : PointId) (w : Pairs × Bool) : Pairs × Bool :=
  match look w.1 u with
  | none => w
  | some pu =>
    let candidate := pu.add step
    if candidate.betterThan (look w.1 v) then (store w.1 v (some candidate), true) else w

/-- The passage permits walking from end A to end B (R53). -/
def Passage.fromA (p : Passage) : Bool := p == .both || p == .aToB
/-- The passage permits walking from end B to end A (R53). -/
def Passage.fromB (p : Passage) : Bool := p == .both || p == .bToA

/-- The step pair of an aisle in a snapshot (R50). -/
def aisleStep (map : MapStore) (sn : Snapshot) (x : AisleId) : Pair :=
  stepPair (look map.aisles x).length (look map.aisles x).width (look sn.aisles x).hazard

/-- One aisle of a sweep: end A from end B, then end B from end A, in the permitted directions (R53). -/
def sweepAisle (map : MapStore) (sn : Snapshot) (x : AisleId) (w : Pairs × Bool) : Pairs × Bool :=
  let sa := look sn.aisles x
  if sa.usable then
    let a := look map.aisles x
    let step := aisleStep map sn x
    let w1 := if sa.passage.fromA then relax step a.endA a.endB w else w
    if sa.passage.fromB then relax step a.endB a.endA w1 else w1
  else w

/-- One sweep over the aisles in ascending index, with the change mark it leaves (R53). -/
def sweepTable (map : MapStore) (sn : Snapshot) (pairs : Pairs) : Pairs × Bool :=
  forEach 480 (sweepAisle map sn) (pairs, false)

/-- A run is given up at a boundary: its pairs and new table are discarded, the abandon count rises, a new run starts
(R65). -/
def abandonRun (s : State) : State :=
  startRun { s with engine := { s.engine with abandonCount := min Config.firmCount (s.engine.abandonCount + 1) } }

/-- The end of a sweep (R54), with the abandon mark taking precedence (R65). -/
def endSweep (s : State) : State :=
  match s.engine.run, s.engine.snapshot with
  | .sweeping, some sn =>
    let w := sweepTable s.map sn s.engine.pairs
    if s.engine.abandonMark then abandonRun s
    else if w.2 && s.engine.sweep < Config.sweepLimit then
      { s with engine := { s.engine with pairs := w.1, sweep := s.engine.sweep + 1, changeMark := false } }
    else { s with engine := { s.engine with run := .selecting, pairs := w.1, changeMark := w.2 } }
  | _, _ => s

/-! ## Selection (R56 to R58) -/

/-- The other end of an aisle that people at p may walk along, where the aisle does not join p to itself (R57). -/
def walkTo (a : Aisle) (passage : Passage) (p : PointId) : Option PointId :=
  if a.endA = a.endB then none
  else if a.endA = p then if passage.fromA then some a.endB else none
  else if a.endB = p then if passage.fromB then some a.endA else none
  else none

/-- The candidate pair of an aisle for a point with best pair b, if the aisle is a candidate (R57). -/
def candidatePair (map : MapStore) (sn : Snapshot) (pairs : Pairs) (p : PointId) (b : Pair) (x : AisleId) :
    Option Pair :=
  let sa := look sn.aisles x
  if sa.usable then
    match walkTo (look map.aisles x) sa.passage p with
    | some q =>
      match look pairs q with
      | some bq => if bq.better b then some (bq.add (aisleStep map sn x)) else none
      | none => none
    | none => none
  else none

/-- The next aisle chosen afresh: the lowest candidate aisle whose candidate pair equals b (R57). -/
def freshAisle (map : MapStore) (sn : Snapshot) (pairs : Pairs) (p : PointId) (b : Pair) : Option AisleId :=
  firstIndex 480 fun x => candidatePair map sn pairs p b x == some b

/-- The margin H: the larger of HYST_ABS and floor(c_best × HYST_PCT / 100) (R58). -/
def margin (sn : Snapshot) (b : Pair) : Nat := max sn.hystAbs (b.walk * sn.hystPct / 100)

/-- The previous next aisle, where the four conditions of R58 keep it. -/
def keptAisle (map : MapStore) (sn : Snapshot) (pairs : Pairs) (previous : Route) (p : PointId) (b : Pair) :
    Option AisleId :=
  if previous.status = .routed then
    match previous.next with
    | some x =>
      match candidatePair map sn pairs p b x with
      | some c => if c.smoke = b.smoke ∧ c.walk ≤ b.walk + margin sn b then some x else none
      | none => none
    | none => none
  else none

/-- The exit record that names a point: the lowest defined one (R56; validation leaves at most one, log 27). -/
def exitAt (map : MapStore) (p : PointId) : Option ExitId :=
  firstIndex 24 fun e => (look map.exits e).defined && (look map.exits e).point == p

/-- The exit whose source pair equals the best pair of its own EXIT point (R56, case 3). -/
def ownExit (map : MapStore) (sn : Snapshot) (p : PointId) (b : Pair) : Option ExitId :=
  if (look map.points p).kind = .exit then
    match exitAt map p with
    | some e => if look sn.sources e = some b then some e else none
    | none => none
  else none

/-- The route record of a point by selection, less the target exit of a ROUTED point (R56 to R58). -/
def selectRoute (map : MapStore) (sn : Snapshot) (pairs : Pairs) (published : RouteTable) (p : PointId) : Route :=
  if (look map.points p).defined then
    match look pairs p with
    | none => Route.noRoute
    | some b =>
      match ownExit map sn p b with
      | some e => { status := .exitHere, best := some b, next := none, target := some e }
      | none =>
        { status := .routed
          best := some b
          next := (keptAisle map sn pairs (look published p) p b).or (freshAisle map sn pairs p b)
          target := none }
  else Route.undefined

/-- The table that selection writes (R56). -/
def selectTable (map : MapStore) (sn : Snapshot) (pairs : Pairs) (published : RouteTable) : RouteTable :=
  tabulate 240 (selectRoute map sn pairs published)

/-- The end of selection: the run is given up where the abandon mark is set, and otherwise publishes (R61, R65). -/
def endSelection (s : State) : State :=
  match s.engine.run, s.engine.snapshot with
  | .selecting, some sn =>
    if s.engine.abandonMark then abandonRun s
    else
      { s with
        engine :=
          { s.engine with
            run := .publishing
            newTable := some (selectTable s.map sn s.engine.pairs s.engine.table) } }
  | _, _ => s

/-! ## Target exits and digest (R47, R60) -/

/-- The far end of an aisle from a point (R60). -/
def farEnd (a : Aisle) (p : PointId) : PointId := if a.endA = p then a.endB else a.endA

/-- The exit reached by following next aisles (R60). -/
def followNext (map : MapStore) (table : RouteTable) : Nat → PointId → Option ExitId
  | 0, _ => none
  | fuel + 1, p =>
    match (look table p).status with
    | .exitHere => (look table p).target
    | .routed =>
      match (look table p).next with
      | some x => followNext map table fuel (farEnd (look map.aisles x) p)
      | none => none
    | _ => none

/-- The table with the target exit of every ROUTED point (R60). -/
def withTargets (map : MapStore) (table : RouteTable) : RouteTable :=
  tabulate 240 fun p =>
    let r := look table p
    if r.status = .routed then { r with target := followNext map table 240 p } else r

/-- The value of a point in the digest (Table 3.2). -/
def digestValue (r : Route) : Half :=
  match r.status with
  | .undefined => 0xFFFF
  | .noRoute => 0xFFFE
  | .exitHere => 0xFFFD
  | .routed =>
    match r.next with
    | some x => BitVec.ofNat 16 x.val
    | none => 0xFFFE

/-- The digest of a table: the CRC over its 240 values, high byte first (R47). -/
def digestOf (table : RouteTable) : Half := crc16 (table.toList.flatMap fun r => halfBytes (digestValue r))

/-- The cleared table's record of a point (R46). -/
def clearedRoute (p : Point) : Route := if p.defined then Route.noRoute else Route.undefined

/-- The cleared table (R46). -/
def clearedTable (map : MapStore) : RouteTable := tabulate 240 fun p => clearedRoute (look map.points p)

/-- A table and its digest take their places in one step (R47, R61). -/
def replaceTable (table : RouteTable) (s : State) : State :=
  { s with engine := { s.engine with table := table, digest := digestOf table } }

/-- The engine enters IDLE; what belongs to a run is discarded (R45). -/
def idleEngine (e : Engine) : Engine :=
  { e with
    run := .idle
    snapshot := none
    pairs := Vector.replicate 240 none
    sweep := 0
    changeMark := false
    abandonMark := false
    firmMark := false
    newTable := none }

/-- IDLE with the cleared table, count and flags cleared (R68, R69). -/
def clearEngine (s : State) : State :=
  replaceTable (clearedTable s.map)
    { s with engine := { idleEngine s.engine with abandonCount := 0, pendingFlag := false } }

/-! ## Commands -/

/-- SWEEP_END (R54): nothing changes where no sweep is in progress (log 5). -/
def execSweepEnd (s : State) : Host.Outcome State Fault Refusal := .next (endSweep s)

/-- SELECTION_END (R56 to R58, R61): nothing changes where no selection is in progress (log 5). -/
def execSelectionEnd (s : State) : Host.Outcome State Fault Refusal := .next (endSelection s)

end Sys2Proof.Machine
end

