-- ==== Sys2Proof/Machine/Publication.lean ====
section
/-! DEFINITION. Publication of a route table (R61, R62). -/

namespace Sys2Proof.Machine

/-- Points of a table with a given status (R62). -/
def countStatus (table : RouteTable) (st : RouteStatus) : Nat :=
  countIndex 240 fun p => (look table p).status == st

/-- Points of a table whose best pair has a smoke length above 0 (R62). -/
def countSmoke (table : RouteTable) : Nat :=
  countIndex 240 fun p => match (look table p).best with | some b => decide (0 < b.smoke) | none => false

/-- The ROUTES notice of a publication (R62). -/
def routesNotice (s : State) (changed : Nat) : Notice :=
  .routes (countStatus s.engine.table .routed) (countStatus s.engine.table .exitHere)
    (countStatus s.engine.table .noRoute) (countSmoke s.engine.table) changed s.engine.abandonCount s.engine.digest

/-- The replacement, the recomputation, the ROUTES notice, and the abandon count and firm mark cleared (R61, R62 steps
1 to 3). -/
def publishTable (table : RouteTable) (s : State) : State :=
  let s1 := replaceTable (withTargets s.map table) s
  let changed := changedHeads s1
  let s2 := recomputeAll s1
  let s3 := offer (routesNotice s2 changed) s2
  { s3 with engine := { s3.engine with abandonCount := 0, firmMark := false } }

/-- After publication: a new run where the pending flag is set, IDLE otherwise (R62 step 4). -/
def afterPublication (s : State) : State :=
  if s.engine.pendingFlag then startRun s else { s with engine := idleEngine s.engine }

/-- Publishing completes (R61, R62). -/
def publish (s : State) : State :=
  match s.engine.run, s.engine.newTable with
  | .publishing, some table => afterPublication (publishTable table s)
  | _, _ => s

/-- What DISARM does to the engine (R68): a publication in progress is completed but for step 4 of R62; then the cleared
table, the count, flag and marks cleared, IDLE. -/
def disarmEngine (s : State) : State :=
  match s.engine.run, s.engine.newTable with
  | .publishing, some table => clearEngine (publishTable table s)
  | _, _ => clearEngine s

/-- PUBLICATION: nothing changes where no publication is in progress (log 5). -/
def execPublication (s : State) : Host.Outcome State Fault Refusal := .next (publish s)

end Sys2Proof.Machine
end

