-- ==== Sys2Proof/Machine/Heads.lean ====
section
/-! DEFINITION. The head manager (section 7): entries into states, announcements, the outcomes of commands, head tests,
and what an observing controller takes from observed transactions (8.4). -/

namespace Sys2Proof.Machine

/-! ## Entries into states (R118, R131) -/

/-- A pending head test ends with outcome *head failed* and its TEST notice (R131). -/
def endTest (h : HeadId) (s : State) : State :=
  if (headOf s h).testPending then offer (.test h none) (setHead h { headOf s h with testPending := false } s) else s

/-- The desired display becomes absent and the update queue entry is removed (R71, R96). -/
def dropDisplay (h : HeadId) (s : State) : State :=
  setDesired h none { s with queue := withoutHead h s.queue }

/-- The record that a head entering ABSENT takes; the counts are kept where the cause is a failed ASSIGN (R118). -/
def absentRecord (keepCounts : Bool) (r : Head) : Head :=
  if keepCounts then { Head.reset with faultCount := r.faultCount, lastReject := r.lastReject } else Head.reset

/-- Entry into ABSENT (R118). -/
def enterAbsent (keepCounts : Bool) (h : HeadId) (s : State) : State :=
  dropDisplay h (setHead h (absentRecord keepCounts (headOf s h)) (endTest h s))

/-- The record that a head entering JOINING takes (R118). -/
def joiningRecord (abilities : Option Abilities) (r : Head) : Head :=
  { r with
    state := .joining
    abilities := abilities
    confirmed := none
    generation := none
    faultMask := SegMask.empty
    loaded := []
    waitCount := 0
    announced := false
    testPending := false }

/-- Entry into JOINING from another state (R118). -/
def enterJoining (h : HeadId) (abilities : Option Abilities) (s : State) : State :=
  dropDisplay h (setHead h (joiningRecord abilities (headOf s h)) (endTest h s))

/-- Entry into FAILED (R118). -/
def enterFailed (h : HeadId) (s : State) : State :=
  let s1 := endTest h s
  dropDisplay h (setHead h { headOf s1 h with state := .failed, waitCount := 0 } s1)

/-- Entry into LOADING with an empty loading record, confirmed display and generation as given (R122, R124, R127); a
pending test ends where the record leaves SERVING (R131). -/
def enterLoading (h : HeadId) (s : State) : State :=
  let s1 := endTest h s
  setHead h { headOf s1 h with state := .loading, loaded := [] } s1

/-! ## Faults and WAITs (R125, R126) -/

/-- Why a command counts as failed (R126). -/
inductive FaultCause
  | reject (r : RejectReason)
  | noReply
  | waitLimit
  deriving DecidableEq, Repr

/-- The cause a HEAD notice gives for a fault (Table 7.4). -/
def faultNotice : FaultCause → HeadCause
  | .reject _ => .reject
  | .noReply => .noReply
  | .waitLimit => .waitLimit

/-- The outcome of an addressed command, the sixteenth WAIT in a row already taken as no reply (R113, R125). An ACK to
ASSIGN or SCRIPT carries no status, and none is read. -/
inductive Taken
  | ack (st : AckStatus)
  | wait
  | fault (c : FaultCause)
  deriving DecidableEq, Repr

/-- The outcome of a reply window for a head's record (R100, R125). -/
def takenOf (r : Head) : WindowClass → Taken
  | .valid .ack => .ack { mask := SegMask.empty, generation := none }
  | .valid (.ackStatus st) => .ack st
  | .valid .wait => if Config.waitLimit ≤ r.waitCount + 1 then .fault .waitLimit else .wait
  | .valid (.reject x) => .fault (.reject x)
  | .valid (.announcement _ _) => .fault .noReply
  | .valid (.partner _ _ _) => .fault .noReply
  | .silent => .fault .noReply
  | .garbled => .fault .noReply

/-- The fault count rises by one, a REJECT writes its reason, the wait count returns to 0 (R125, R126). -/
def countFault (c : FaultCause) (r : Head) : Head :=
  { r with
    faultCount := min Config.faultLimit (r.faultCount + 1)
    lastReject := match c with | .reject x => some x | _ => r.lastReject
    waitCount := 0 }

/-- A fault that leaves the record's state as it is (Table 8.4). -/
def noteFault (h : HeadId) (c : FaultCause) (s : State) : State := setHead h (countFault c (headOf s h)) s

/-- A WAIT raises the wait count (R125). -/
def waitUp (h : HeadId) (s : State) : State :=
  setHead h { headOf s h with waitCount := (headOf s h).waitCount + 1 } s

/-- The HEAD notice of a change of a head's state (R132). -/
def headNotice (s : State) (h : HeadId) (previous new : HeadState) (cause : HeadCause) : Notice :=
  .head (some h) (placementOf s h).serial (some previous) (some new) cause (headOf s h).faultCount
    (headOf s h).lastReject none

/-- A REJECT or no reply in LOADING or SERVING (R126): counts, RECOVERING, the test's end, the HEAD notice, and the
recomputation of the display. -/
def headFault (h : HeadId) (c : FaultCause) (s : State) : State :=
  let previous := (headOf s h).state
  let s1 := setHead h { countFault c (headOf s h) with state := .recovering } s
  let s2 := endTest h s1
  refreshHead h (offer (headNotice s2 h previous .recovering (faultNotice c)) s2)

/-- A REJECT or no reply to RESYNC (R127): counts, FAILED, the HEAD notice. -/
def resyncFault (h : HeadId) (c : FaultCause) (s : State) : State :=
  let previous := (headOf s h).state
  let s1 := enterFailed h (noteFault h c s)
  offer (headNotice s1 h previous .failed (faultNotice c)) s1

/-! ## Outcomes by command (R122 to R127, R129) -/

/-- An ASSIGN is acknowledged (R122): LOADING, nothing loaded, no confirmed display, no generation, the display computed. -/
def assignAck (h : HeadId) (s : State) : State :=
  let s1 := enterLoading h s
  refreshHead h (setHead h { headOf s1 h with confirmed := none, generation := none, waitCount := 0 } s1)

/-- The outcome of an ASSIGN for a JOINING record (R122). -/
def assignOutcome (h : HeadId) (t : Taken) (s : State) : State :=
  match t with
  | .ack _ => assignAck h s
  | .wait => waitUp h s
  | .fault c => enterAbsent true h (noteFault h c s)

/-- An acknowledged block joins the loading record, which holds each pair once (R123). -/
def addBlock (b : Nat × Nat) (loaded : List (Nat × Nat)) : List (Nat × Nat) :=
  if b ∈ loaded then loaded else loaded ++ [b]

/-- An ACK to a SCRIPT for a LOADING record (R123): a stale generation counts for nothing, a block joins the loading
record, the closing SCRIPT brings SERVING with its HEAD notice. -/
def scriptAck (h : HeadId) (generation script block : Byte) (s : State) : State :=
  let r := { headOf s h with waitCount := 0 }
  if generation ≠ s.selector.generation then setHead h r s
  else if script = 0 then
    let s1 := setHead h { r with generation := some generation, state := .serving } s
    refreshHead h (offer (headNotice s1 h .loading .serving .loaded) s1)
  else setHead h { r with loaded := addBlock (script.toNat, block.toNat) r.loaded } s

/-- The outcome of a SCRIPT for a LOADING record (R123). -/
def scriptOutcome (h : HeadId) (generation script block : Byte) (t : Taken) (s : State) : State :=
  match t with
  | .ack _ => scriptAck h generation script block s
  | .wait => waitUp h s
  | .fault c => headFault h c s

/-- The display a command carried, if it carried one. -/
def carriedDisplay : BusCommand → Option Display
  | .display d => some d
  | .resync _ _ _ d => some d
  | _ => none

/-- A display is acknowledged: it becomes the confirmed display and the update queue takes it (R93, R95). -/
def confirmDisplay (h : HeadId) (d : Option Display) (s : State) : State :=
  match d with
  | some d =>
    let s1 := setHead h { headOf s h with confirmed := some d } s
    { s1 with queue := queueAck h d (desiredOf s h) s1.queue }
  | none => s

/-- The result of a test that an ACK ends (R131); its mask carries the ACK's *no generation* mark (R171). -/
def testResult (st : AckStatus) (r : Head) : TestResult :=
  { mask := st.mask, noGeneration := st.generation.isNone, announced := st.mask.arrows &&& announcedArrows r }

/-- An ACK to TEST ends a pending test, with its TEST notice of outcome *done* (R131). -/
def testDone (h : HeadId) (st : AckStatus) (s : State) : State :=
  if (headOf s h).testPending then
    offer (.test h (some (testResult st (headOf s h)))) (setHead h { headOf s h with testPending := false } s)
  else s

/-- The recomputation that a changed fault mask starts (R80). -/
def refreshIf (cond : Bool) (h : HeadId) (s : State) : State := if cond then refreshHead h s else s

/-- The fault mask, loaded generation and wait count that an ACK leaves (R124 steps 2, 4 and 5). -/
def takeStatus (h : HeadId) (st : AckStatus) (s : State) : State :=
  setHead h { headOf s h with faultMask := st.mask, generation := st.generation, waitCount := 0 } s

/-- An ACK from a SERVING head to DISPLAY, POLL or TEST (R124, R131, R132). -/
def servingAck (h : HeadId) (c : BusCommand) (st : AckStatus) (s : State) : State :=
  let changed := (headOf s h).faultMask != st.mask
  let stale := st.generation != some s.selector.generation
  let s1 := takeStatus h st (confirmDisplay h (carriedDisplay c) s)
  let s2 := if c = .test then testDone h st s1 else s1
  let s3 := if stale then enterLoading h s2 else s2
  refreshIf (changed || stale) h s3

/-- The entry of a head that answers WAIT to a DISPLAY is held, but not by an observing controller (R94, R145). -/
def heldByWait (h : HeadId) (c : BusCommand) (observed : Bool) (s : State) : State :=
  match c with
  | .display _ => if observed then s else { s with queue := holdEntry h s.queue }
  | _ => s

/-- The outcome of DISPLAY, POLL or TEST for a SERVING record (R124 to R126, R94). -/
def servingOutcome (h : HeadId) (c : BusCommand) (observed : Bool) (t : Taken) (s : State) : State :=
  match t with
  | .ack st => servingAck h c st s
  | .wait => heldByWait h c observed (waitUp h s)
  | .fault cause => headFault h cause s

/-- The outcome of DISPLAY, POLL or TEST that finds the record LOADING (R129). -/
def loadingOutcome (h : HeadId) (c : BusCommand) (observed : Bool) (t : Taken) (s : State) : State :=
  match t with
  | .ack st =>
    refreshIf ((headOf s h).faultMask != st.mask) h (takeStatus h st (confirmDisplay h (carriedDisplay c) s))
  | .wait => heldByWait h c observed (waitUp h s)
  | .fault cause => headFault h cause s

/-- An ACK taken as an ACK to RESYNC (R127): SERVING with its HEAD notice where the loaded generation is the present one,
LOADING otherwise. -/
def resyncAck (h : HeadId) (d : Option Display) (st : AckStatus) (s : State) : State :=
  let previous := (headOf s h).state
  let s1 := takeStatus h st (confirmDisplay h d s)
  if st.generation = some s.selector.generation then
    let s2 := setHead h { headOf s1 h with state := .serving } s1
    refreshHead h (offer (headNotice s2 h previous .serving .resynced) s2)
  else refreshHead h (enterLoading h s1)

/-- The outcome of a RESYNC (R127). -/
def resyncOutcome (h : HeadId) (d : Display) (t : Taken) (s : State) : State :=
  match t with
  | .ack st => resyncAck h (some d) st s
  | .wait => waitUp h s
  | .fault c => resyncFault h c s

/-- The outcome of a command of the part's own slot, for the record as it stands at completion (R113, R129). An outcome
that finds a state R122 to R129 do not pair with the command is disregarded (log 25). -/
def ownOutcome (h : HeadId) (c : BusCommand) (w : WindowClass) (s : State) : State :=
  let t := takenOf (headOf s h) w
  match c, (headOf s h).state with
  | .assign _, .joining => assignOutcome h t s
  | .script g sc b _, .loading => scriptOutcome h g sc b t s
  | .display _, .serving | .poll, .serving | .test, .serving => servingOutcome h c false t s
  | .display _, .loading | .poll, .loading | .test, .loading => loadingOutcome h c false t s
  | .resync _ _ _ d, .recovering => resyncOutcome h d t s
  | _, _ => s

/-! ## Observed transactions (R144, Table 8.4) -/

/-- An observed ASSIGN for a record that is LOADING, SERVING or RECOVERING (Table 8.4). -/
def observedAssign (h : HeadId) (t : Taken) (s : State) : State :=
  match t with
  | .ack _ => assignAck h s
  | _ => s

/-- An observed SCRIPT for a record that is SERVING or RECOVERING (Table 8.4). -/
def observedScript (h : HeadId) (generation script block : Byte) (t : Taken) (s : State) : State :=
  match t with
  | .ack _ => scriptAck h generation script block (refreshHead h (enterLoading h s))
  | .wait => waitUp h s
  | .fault c => if (headOf s h).state = .serving then headFault h c s else noteFault h c s

/-- An observed DISPLAY, POLL or TEST for a RECOVERING record (Table 8.4). -/
def observedRecovering (h : HeadId) (c : BusCommand) (t : Taken) (s : State) : State :=
  match t with
  | .ack st => resyncAck h (carriedDisplay c) st s
  | .wait => waitUp h s
  | .fault cause => noteFault h cause s

/-- The outcome of an observed command, for the observer's record (Table 8.4). -/
def observedOutcome (h : HeadId) (c : BusCommand) (w : WindowClass) (s : State) : State :=
  let t := takenOf (headOf s h) w
  match c, (headOf s h).state with
  | .assign _, .joining => assignOutcome h t s
  | .assign _, .loading | .assign _, .serving | .assign _, .recovering => observedAssign h t s
  | .script g sc b _, .loading => scriptOutcome h g sc b t s
  | .script g sc b _, .serving | .script g sc b _, .recovering => observedScript h g sc b t s
  | .display _, .serving | .poll, .serving | .test, .serving => servingOutcome h c true t s
  | .display _, .loading | .poll, .loading | .test, .loading => loadingOutcome h c true t s
  | .display _, .recovering | .poll, .recovering | .test, .recovering => observedRecovering h c t s
  | .resync _ _ _ d, .recovering | .resync _ _ _ d, .loading | .resync _ _ _ d, .serving => resyncOutcome h d t s
  | _, _ => s

/-! ## Announcements (R119 to R121) -/

/-- An enrol fault: protocol level other than 2 or 3, or script capacity outside 8 to 64 (R119). -/
def enrolFault (a : Abilities) : Bool :=
  !((a.level == 2 || a.level == 3) && (8 ≤ a.capacity.toNat && a.capacity.toNat ≤ 64))

/-- The defined placement that holds a serial (R119; at most one does, R9). -/
def placementWith (s : State) (serial : Serial) : Option HeadId :=
  firstIndex 64 fun h => (placementOf s h).defined && (placementOf s h).serial == serial

/-- The HEAD notice of an enrol fault (R119, R132). -/
def enrolNotice (s : State) (serial : Serial) (a : Abilities) : Notice :=
  match placementWith s serial with
  | some h =>
    .head (some h) serial (some (headOf s h).state) (some (headOf s h).state) .enrolFault (headOf s h).faultCount
      (headOf s h).lastReject (some a)
  | none => .head none serial none none .enrolFault 0 none (some a)

/-- An enrol fault (R119): a serial other than the last faulty one is noted and reported. -/
def enrolFaulty (serial : Serial) (a : Abilities) (s : State) : State :=
  if s.heads.lastFaulty = some serial then s
  else offer (enrolNotice s serial a) { s with heads := { s.heads with lastFaulty := some serial } }

/-- The stranger list with a serial's entry removed (R121, R9). -/
def withoutStranger (serial : Serial) (l : List Stranger) : List Stranger := l.filter fun x => x.serial != serial

/-- A stranger announces (R121). -/
def strangerHeard (serial : Serial) (a : Abilities) (s : State) : State :=
  let l := s.heads.strangers
  if l.any fun x => x.serial == serial then
    { s with
      heads := { s.heads with strangers := l.map fun x => if x.serial = serial then { x with abilities := a } else x } }
  else
    let full := Config.strangerCapacity ≤ l.length
    let l1 := (if full then l.drop 1 else l) ++ [{ serial := serial, abilities := a }]
    offer (.stranger serial a l1.length full) { s with heads := { s.heads with strangers := l1 } }

/-- The announcement of a FAILED record's serial (R120). -/
def failedAnnounces (h : HeadId) (a : Abilities) (s : State) : State :=
  let r := headOf s h
  let s1 := setHead h { r with abilities := some a, announced := true } s
  if r.announced then s1 else offer (headNotice s1 h .failed .failed .announcedWhileFailed) s1

/-- An accepted announcement (Table 7.3). -/
def acceptedAnnouncement (serial : Serial) (a : Abilities) (s : State) : State :=
  match placementWith s serial with
  | none => strangerHeard serial a s
  | some h =>
    if (placementOf s h).enabled then
      match (headOf s h).state with
      | .joining => setHead h { headOf s h with abilities := some a } s
      | .failed => failedAnnounces h a s
      | _ => enterJoining h (some a) s
    else s

/-- The head manager receives a valid announcement (R119). -/
def announce (serial : Serial) (a : Abilities) (s : State) : State :=
  if enrolFault a then enrolFaulty serial a s else acceptedAnnouncement serial a s

/-! ## Loading (R110) -/

/-- The blocks of a script: steps 0 to 11, and 12 to the last where there are more (R110). -/
def blocksOf (steps : List ScriptStep) : List (Nat × List ScriptStep) :=
  if steps.length ≤ Config.blockSteps then [(0, steps)]
  else [(0, steps.take Config.blockSteps), (1, steps.drop Config.blockSteps)]

/-- The blocks of the library that fit a head's capacity, in ascending script and block number (R110). -/
def libraryBlocks (sel : Selector) (capacity : Nat) : List (Nat × Nat × List ScriptStep) :=
  (List.finRange 12).flatMap fun i =>
    match look sel.library i with
    | some steps => if steps.length ≤ capacity then (blocksOf steps).map fun b => (i.val + 1, b.1, b.2) else []
    | none => []

/-- The SCRIPT command of a LOADING head's POLL slot: the first block not acknowledged, or the closing SCRIPT (R110). -/
def nextScript (s : State) (h : HeadId) : BusCommand :=
  let r := headOf s h
  match (libraryBlocks s.selector (capacityOf r)).find? fun b => !((b.1, b.2.1) ∈ r.loaded) with
  | some (script, block, steps) =>
    .script s.selector.generation (natByte script) (natByte block) (steps.map stepCode)
  | none => .script s.selector.generation 0 0 []

/-! ## Library edits and the release of all heads (R84, R115) -/

/-- The head manager is told of a new library generation: a SERVING head goes to LOADING (R84 step 3), and the loading
record of every head is emptied (R123). -/
def reloadHead (h : HeadId) (s : State) : State :=
  if (headOf s h).state = .serving then refreshHead h (enterLoading h s)
  else setHead h { headOf s h with loaded := [] } s

/-- Every head record becomes ABSENT, with the update queue, the stranger list and the last faulty serial emptied (R115,
R143). The TEST notices of pending tests follow in ascending head index: the model's choice, log 20. -/
def releaseHeads (s : State) : State :=
  let s1 := forEach 64 (enterAbsent false) s
  { s1 with queue := [], heads := { s1.heads with strangers := [], lastFaulty := none } }

/-! ## TEST HEAD and RESTORE HEAD (R130, R128) -/

/-- TEST HEAD, in the order of R130. -/
def testHead (index : Byte) (s : State) : Served :=
  match indexOf 64 index.toNat with
  | none => refuse .badIndex s
  | some h =>
    if (headOf s h).state ≠ .serving then refuse .wrongMode s
    else if (headOf s h).testPending then refuse .busy s
    else taken .done (setHead h { headOf s h with testPending := true } s)

/-- A FAILED record returns to JOINING with its stored abilities and its counts cleared (R128). -/
def restoreRecord (h : HeadId) (s : State) : State :=
  let s1 := enterJoining h (headOf s h).abilities s
  setHead h { headOf s1 h with faultCount := 0, lastReject := none } s1

/-- RESTORE HEAD (R128). -/
def restoreHead (index : Byte) (s : State) : Served :=
  match indexOf 64 index.toNat with
  | none => refuse .badIndex s
  | some h =>
    if (headOf s h).state ≠ .failed then refuse .wrongMode s else taken .done (restoreRecord h s)

/-- The frame of a request command (Table 11.2). -/
def requestFrame (i : Instr) : PanelFrame := (encodeRequest i).getD { type := 0, tag := 0, payload := [] }

/-- TEST_HEAD. -/
def execTestHead (tag index : Byte) (s : State) : Host.Outcome State Fault Refusal :=
  .next (takeRequest (requestFrame (.testHead tag index)) (testHead index) s)

/-- RESTORE_HEAD. -/
def execRestoreHead (tag index : Byte) (s : State) : Host.Outcome State Fault Refusal :=
  .next (takeRequest (requestFrame (.restoreHead tag index)) (restoreHead index) s)

end Sys2Proof.Machine
end

