-- ==== Sys2Proof/Machine/Exits.lean ====
section
/-! DEFINITION. The exit monitor (2.3) and the gate scanner (2.2). -/

namespace Sys2Proof.Machine

/-! ## Availability (R40, R43) -/

/-- The zone that an exit's point names; none where the point is undefined or names no zone (R40). -/
def exitZone (s : State) (e : ExitId) : Option ZoneId :=
  let p := look s.map.points (look s.map.exits e).point
  if p.defined then p.zone else none

/-- The state of the exit point's zone, or absent (R43). -/
def exitZoneState (s : State) (e : ExitId) : Option ZoneState := (exitZone s e).map fun z => (zoneOf s z).state

/-- The zone input makes a way out impassable: SMOKE or CLEARING (Table 2.3). -/
def smoky : Option ZoneState → Bool
  | some .smoke => true
  | some .clearing => true
  | some .clear => false
  | some .suspect => false
  | some .silent => false
  | none => false

/-- Availability of an exit (Table 2.3). -/
def availability (o : Override) (c : ExitContact) (z : Option ZoneState) : Bool :=
  match o with
  | .forcedOpen => true
  | .forcedClosed => false
  | .auto => c != .broken && !smoky z

/-- The availability that an exit's inputs give as they stand (R40). -/
def availabilityOf (s : State) (e : ExitId) : Bool :=
  availability (exitOf s e).override (exitOf s e).contact (exitZoneState s e)

/-- The EXIT notice of an exit (R43). -/
def exitNotice (s : State) (e : ExitId) : Notice :=
  .exit e (exitOf s e).available (exitOf s e).override (exitOf s e).contact (exitZoneState s e)

/-- Class of a change of availability (Table 2.4). -/
def availabilityClass (available : Bool) : ChangeClass := if available then .loosening else .tightening

/-- Re-evaluation of a defined exit (R40): a change of availability offers its EXIT notice, then hands its change event
(R43). RESTART hands none (R158). -/
def reevalExit (hand : Bool) (e : ExitId) (s : State) : State :=
  let new := availabilityOf s e
  if (look s.map.exits e).defined ∧ new ≠ (exitOf s e).available then
    let s1 := setExitRt e { exitOf s e with available := new } s
    let s2 := offer (exitNotice s1 e) s1
    if hand then handChange (availabilityClass new) s2 else s2
  else s

/-- Re-evaluation of every defined exit (R40), in ascending exit index, and so in the order of their EXIT notices: the
model's choice, log 37. -/
def reevalExits (hand : Bool) (s : State) : State := forEach 24 (reevalExit hand) s

/-- The contact state that an exit takes from the scanner (R39). -/
def contactOf : ContactState → ExitContact
  | .unknown => .unknown
  | .made => .made
  | .broken => .broken

/-- The contact state of a newly set contact position: UNKNOWN, or NONE where there is none (R39). -/
def freshContact : Option Position → ExitContact
  | some _ => .unknown
  | none => .none

/-- An exit takes a contact state; the copy that was due is made (R38, R39). -/
def takeContact (e : ExitId) (c : ContactState) (s : State) : State :=
  reevalExit true e (setExitRt e { exitOf s e with contact := contactOf c, copyDue := false } s)

/-! ## Gate scanner (R35 to R38) -/

/-- The run of a position after a newly read level, `true` for made (R36). -/
def runOn (level : Bool) (c : Contact) : Contact :=
  if c.level = some level then { c with count := min Config.debounceCount (c.count + 1) }
  else { c with level := some level, count := 1, deferred := false }

/-- The contact state of a run level (R37). -/
def levelState : Bool → ContactState
  | true => .made
  | false => .broken

/-- A position is a candidate: run count 5 and a run level that differs from the contact state (R36). -/
def isCandidate (c : Contact) : Bool :=
  match c.level with
  | some l => c.count == Config.debounceCount && c.state != levelState l
  | none => false

/-- An accepted candidate (R37). -/
def acceptContact (c : Contact) : Contact :=
  match c.level with
  | some l => { c with state := levelState l, deferred := false }
  | none => c

/-- Every position's run after the levels of a scan (R36). -/
def scanRuns (levels : BitVec 32) (v : Vector Contact 32) : Vector Contact 32 :=
  tabulate 32 fun p => runOn (levels.getLsbD p.val) (look v p)

/-- The candidates in the order of R37: deferred positions first, each part in row-major order. -/
def candidates (v : Vector Contact 32) : List PositionId :=
  ((List.finRange 32).filter fun p => isCandidate (look v p) && (look v p).deferred)
    ++ (List.finRange 32).filter fun p => isCandidate (look v p) && !(look v p).deferred

/-- The candidates accepted in a scan (R37). -/
def acceptedOf (v : Vector Contact 32) : List PositionId := (candidates v).take Config.acceptLimit

/-- The scanner after acceptance and deferral (R37). -/
def settleScan (v : Vector Contact 32) : Vector Contact 32 :=
  tabulate 32 fun p =>
    if p ∈ acceptedOf v then acceptContact (look v p)
    else if isCandidate (look v p) then { look v p with deferred := true }
    else look v p

/-- The exit is defined and its contact position is the position numbered p. -/
def hasContact (s : State) (e : ExitId) (p : PositionId) : Bool :=
  (look s.map.exits e).defined && ((look s.map.exits e).contact.map Position.number == some p)

/-- An accepted change reaches every defined exit with that contact position (R38); two exits that name one position take
it in ascending exit index: the model's choice, log 37. An exit whose first copy is still due follows only from that copy
on (R39, log 11). -/
def handContact (p : PositionId) (s : State) : State :=
  forEach 24
    (fun e s =>
      if hasContact s e p && !(exitOf s e).copyDue then takeContact e (look s.scanner p).state s else s) s

/-- The copy at the end of the scan for an exit whose contact state was set to UNKNOWN (R39): a copied MADE or BROKEN is
a contact change, and a copied UNKNOWN changes nothing. -/
def copyContact (e : ExitId) (s : State) : State :=
  if (look s.map.exits e).defined && (exitOf s e).copyDue then
    match (look s.map.exits e).contact with
    | some pos => takeContact e (look s.scanner pos.number).state s
    | none => s
  else s

/-- One scan of the matrix, bit p of the levels set where position p reads made (R35 to R39). -/
def gateScan (levels : BitVec 32) (s : State) : State :=
  let runs := scanRuns levels s.scanner
  let s1 := { s with scanner := settleScan runs }
  let s2 := (acceptedOf runs).foldl (fun s p => handContact p s) s1
  forEach 24 copyContact s2

/-! ## EXIT OVERRIDE and EXIT BIAS (R41, R42) -/

/-- The index of a request names a defined exit (R41, R42). -/
def definedExit (s : State) (index : Byte) : Option ExitId :=
  match indexOf 24 index.toNat with
  | some e => if (look s.map.exits e).defined then some e else none
  | none => none

/-- EXIT OVERRIDE (R41). -/
def exitOverride (index value : Byte) (s : State) : Served :=
  if s.mode = .setup then refuse .wrongMode s
  else
    match definedExit s index with
    | none => refuse .badIndex s
    | some e =>
      match overrideOf value with
      | none => refuse .badValue s
      | some o => taken .done (reevalExit true e (setExitRt e { exitOf s e with override := o } s))

/-- The change of an available exit's runtime bias as a route-affecting change: raised tightening, lowered loosening, and
none where it is unchanged (R42, Table 2.4). -/
def biasClass (old new : Nat) : Option ChangeClass :=
  if old < new then some .tightening else if new < old then some .loosening else none

/-- A runtime bias is written, and handed over where the exit is AVAILABLE (R42). -/
def writeBias (e : ExitId) (b : Nat) (s : State) : State :=
  let s1 := setExitRt e { exitOf s e with bias := b } s
  if (exitOf s e).available then
    match biasClass (exitOf s e).bias b with
    | some c => handChange c s1
    | none => s1
  else s1

/-- EXIT BIAS (R42). -/
def exitBias (index : Byte) (value : Half) (s : State) : Served :=
  if s.mode = .setup then refuse .wrongMode s
  else
    match definedExit s index with
    | none => refuse .badIndex s
    | some e =>
      taken (if Config.biasLimit < value.toNat then .clamped else .done)
        (writeBias e (clampTo 0 Config.biasLimit value.toNat) s)

/-! ## Commands -/

/-- GATE_SCAN (R35 to R39). -/
def execGateScan (levels : BitVec 32) (s : State) : Host.Outcome State Fault Refusal := .next (gateScan levels s)

/-- EXIT_OVERRIDE (R41). -/
def execExitOverride (tag index value : Byte) (s : State) : Host.Outcome State Fault Refusal :=
  .next (takeRequest (requestFrame (.exitOverride tag index value)) (exitOverride index value) s)

/-- EXIT_BIAS (R42). -/
def execExitBias (tag index : Byte) (value : Half) (s : State) : Host.Outcome State Fault Refusal :=
  .next (takeRequest (requestFrame (.exitBias tag index value)) (exitBias index value) s)

end Sys2Proof.Machine
end

