-- ==== Sys2Proof/Machine/Zones.lean ====
section
/-! DEFINITION. The zone monitor (2.1): readings, timers, state changes and the request for ALARM. -/

namespace Sys2Proof.Machine

/-! ## State changes (R33, R34) -/

/-- The class of a zone change (Table 2.4); none where nothing is handed. -/
def zoneClass (old new : ZoneState) : Option ChangeClass :=
  match old, new with
  | .clear, .suspect => some .tightening
  | .clear, .silent => some .tightening
  | .clear, .smoke => some .tightening
  | .suspect, .smoke => some .tightening
  | .silent, .smoke => some .tightening
  | .clearing, .smoke => some .tightening
  | .suspect, .clear => some .loosening
  | .silent, .clear => some .loosening
  | .suspect, .silent => some .loosening
  | .clearing, .clear => some .loosening
  | _, _ => none

/-- A change handed over where it has a class (R33 step 2, R44). -/
def handIf (c : Option ChangeClass) (s : State) : State :=
  match c with
  | some c => handChange c s
  | none => s

/-- The exits whose points name a zone are re-evaluated in ascending exit index (R33 step 3, R43). -/
def reevalZoneExits (z : ZoneId) (s : State) : State :=
  forEach 24 (fun e s => if exitZone s e = some z then reevalExit true e s else s) s

/-- The request for ALARM of a zone that enters SMOKE: in GUARD with AUTO_ALARM set (R34). -/
def requestAlarm (z : ZoneId) (s : State) : State :=
  if s.mode = .guard ∧ s.timing.autoAlarm then { s with alarmRequests := s.alarmRequests ++ [z] } else s

/-- A state change of a zone, in the order of R33. -/
def changeZone (z : ZoneId) (new : ZoneState) (cause : ZoneCause) (s : State) : State :=
  let old := (zoneOf s z).state
  let s1 := setZoneRt z { zoneOf s z with state := new } s
  let s2 := offer (.zone z old new (zoneOf s1 z).lastReading cause) s1
  let s3 := reevalZoneExits z (handIf (zoneClass old new) s2)
  if new = .smoke then requestAlarm z s3 else s3

/-! ## Timers (R28 to R30) -/

/-- A period in seconds as time in ms. -/
def seconds (t : Nat) : Nat := 1000 * t

/-- A zone of the zone table is supervised as it stands (R7). -/
def supervised (s : State) (z : ZoneId) : Bool := (look s.map.zones z).supervised

/-- The confirm timer starts (R28). -/
def startConfirm (z : ZoneId) (s : State) : State :=
  setZoneRt z { zoneOf s z with confirm := some (s.now + seconds s.timing.confirmTime) } s

/-- The confirm timer stops (R28). -/
def stopConfirm (z : ZoneId) (s : State) : State := setZoneRt z { zoneOf s z with confirm := none } s

/-- The clear-hold timer starts (R29). -/
def startClearHold (z : ZoneId) (s : State) : State :=
  setZoneRt z { zoneOf s z with clearHold := some (s.now + seconds s.timing.clearHold) } s

/-- The clear-hold timer stops (R29). -/
def stopClearHold (z : ZoneId) (s : State) : State := setZoneRt z { zoneOf s z with clearHold := none } s

/-- The silence timer starts from the full SILENCE_TIME (R30). -/
def startSilence (z : ZoneId) (s : State) : State :=
  setZoneRt z { zoneOf s z with silence := some (s.now + seconds s.timing.silenceTime) } s

/-- The silence timer stops (R30). -/
def stopSilence (z : ZoneId) (s : State) : State := setZoneRt z { zoneOf s z with silence := none } s

/-- All three timers stop (R31). -/
def stopTimers (z : ZoneId) (s : State) : State := stopSilence z (stopClearHold z (stopConfirm z s))

/-- The states in which the silence timer runs (R30). -/
def watched : ZoneState → Bool
  | .clear => true
  | .suspect => true
  | .smoke => false
  | .clearing => false
  | .silent => false

/-- Entry into GUARD starts the stopped silence timer of a defined, supervised zone in CLEAR or SUSPECT (R30). -/
def guardSilence (z : ZoneId) (s : State) : State :=
  if (look s.map.zones z).defined && supervised s z && watched (zoneOf s z).state && (zoneOf s z).silence.isNone then
    startSilence z s
  else s

/-- Entry into GUARD at the zone monitor's silence timers (R30). -/
def guardSilences (s : State) : State := forEach 64 guardSilence s

/-! ## Readings (R23 to R27) -/

/-- The level has reached the suspect threshold of the zone. -/
def reachesSuspect (s : State) (z : ZoneId) (level : Byte) : Bool := (look s.map.zones z).suspect ≤ level.toNat
/-- The level has reached the smoke threshold of the zone. -/
def reachesSmoke (s : State) (z : ZoneId) (level : Byte) : Bool := (look s.map.zones z).smoke ≤ level.toNat

/-- A reading judged from CLEAR (R24). -/
def judgeClear (z : ZoneId) (level : Byte) (s : State) : State :=
  if reachesSuspect s z level then
    changeZone z .suspect .reading (if reachesSmoke s z level then startConfirm z s else s)
  else s

/-- A reading judged from SUSPECT (R25). -/
def judgeSuspect (z : ZoneId) (level : Byte) (s : State) : State :=
  if !reachesSuspect s z level then changeZone z .clear .reading (stopConfirm z s)
  else if !reachesSmoke s z level then stopConfirm z s
  else if (zoneOf s z).confirm.isNone then startConfirm z s
  else s

/-- A reading judged against the state of its zone (R24 to R27). -/
def judge (z : ZoneId) (level : Byte) (s : State) : State :=
  match (zoneOf s z).state with
  | .clear => judgeClear z level s
  | .suspect => judgeSuspect z level s
  | .smoke => if reachesSuspect s z level then s else changeZone z .clearing .reading (startClearHold z s)
  | .clearing => if reachesSuspect s z level then changeZone z .smoke .reading (stopClearHold z s) else s
  | .silent => judgeClear z level (changeZone z .clear .reading s)

/-- The silence timer restarts where the judgement leaves a supervised zone in CLEAR or SUSPECT (R23 step 3, R30). -/
def restartSilence (z : ZoneId) (s : State) : State :=
  if supervised s z && watched (zoneOf s z).state then startSilence z s else s

/-- One reading of a defined zone, in the three steps of R23. -/
def takeReading (z : ZoneId) (level : Byte) (s : State) : State :=
  restartSilence z (judge z level (setZoneRt z { zoneOf s z with lastReading := some level } s))

/-- The zone a byte names, where it is in range and defined (R23, R31). -/
def definedZone (s : State) (index : Byte) : Option ZoneId :=
  match indexOf 64 index.toNat with
  | some z => if (look s.map.zones z).defined then some z else none
  | none => none

/-- The entries of ZONE READINGS, one after another; an entry for no defined zone is skipped. `true` where one was
(R23). -/
def takeReadings : List (Byte × Byte) → State → Bool × State
  | [], s => (false, s)
  | (index, level) :: rest, s =>
    match definedZone s index with
    | some z => takeReadings rest (takeReading z level s)
    | none => (true, (takeReadings rest s).2)

/-- ZONE READINGS (R23, R164). -/
def zoneReadings (entries : List (Byte × Byte)) (s : State) : Served :=
  if entries.length = 0 ∨ Config.readingLimit < entries.length then refuse .badLength s
  else
    let r := takeReadings entries s
    taken (if r.1 then .badIndex else .done) r.2

/-- CONFIRM ZONE (R31). -/
def confirmZone (index : Byte) (s : State) : Served :=
  match definedZone s index with
  | none => refuse .badIndex s
  | some z =>
    let s1 := stopTimers z s
    taken .done (if (zoneOf s z).state = .smoke then s1 else changeZone z .smoke .confirmZone s1)

/-! ## Expiries (R28 to R30) -/

/-- The confirm timer expires (R28); nothing happens where it does not run (log 3). -/
def confirmExpiry (z : ZoneId) (s : State) : State :=
  match (zoneOf s z).confirm with
  | none => s
  | some t =>
    let s1 := stopConfirm z (reachTime t s)
    if (zoneOf s z).state = .suspect then changeZone z .smoke .confirmExpiry (stopSilence z s1) else s1

/-- The clear-hold timer expires (R29); nothing happens where it does not run (log 3). -/
def clearHoldExpiry (z : ZoneId) (s : State) : State :=
  match (zoneOf s z).clearHold with
  | none => s
  | some t =>
    let s1 := stopClearHold z (reachTime t s)
    if (zoneOf s z).state = .clearing then
      changeZone z .clear .clearHoldExpiry (if supervised s z then startSilence z s1 else s1)
    else s1

/-- The silence timer expires (R30); nothing happens where it does not run (log 3). -/
def silenceExpiry (z : ZoneId) (s : State) : State :=
  match (zoneOf s z).silence with
  | none => s
  | some t =>
    let s1 := stopSilence z (reachTime t s)
    if supervised s z && watched (zoneOf s z).state then changeZone z .silent .silenceExpiry (stopConfirm z s1) else s1

/-! ## Commands -/

/-- ZONE_READINGS (R23 to R27). -/
def execZoneReadings (tag : Byte) (entries : List (Byte × Byte)) (s : State) : Host.Outcome State Fault Refusal :=
  .next (takeRequest (requestFrame (.zoneReadings tag entries)) (zoneReadings entries) s)

/-- CONFIRM_ZONE (R31). -/
def execConfirmZone (tag zone : Byte) (s : State) : Host.Outcome State Fault Refusal :=
  .next (takeRequest (requestFrame (.confirmZone tag zone)) (confirmZone zone) s)

/-- CONFIRM_TIMER_EXPIRY (R28). -/
def execConfirmTimerExpiry (z : ZoneId) (s : State) : Host.Outcome State Fault Refusal := .next (confirmExpiry z s)

/-- CLEAR_HOLD_EXPIRY (R29). -/
def execClearHoldExpiry (z : ZoneId) (s : State) : Host.Outcome State Fault Refusal := .next (clearHoldExpiry z s)

/-- ZONE_SILENCE_EXPIRY (R30). -/
def execZoneSilenceExpiry (z : ZoneId) (s : State) : Host.Outcome State Fault Refusal := .next (silenceExpiry z s)

end Sys2Proof.Machine
end

