-- ==== Sys2Proof/Machine/Map.lean ====
section
/-! DEFINITION. The requests of the hall map store and of the display selector's library and kind map (sections 1 and 4),
and the aisle blocked flags. -/

namespace Sys2Proof.Machine

/-! ## Named writes to the tables -/

/-- The part with one point record replaced. -/
def setPointRec (p : PointId) (r : Point) (s : State) : State :=
  { s with map := { s.map with points := store s.map.points p r } }

/-- The part with one aisle record replaced. -/
def setAisleRec (x : AisleId) (r : Aisle) (s : State) : State :=
  { s with map := { s.map with aisles := store s.map.aisles x r } }

/-- The part with one exit record replaced. -/
def setExitRec (e : ExitId) (r : Exit) (s : State) : State :=
  { s with map := { s.map with exits := store s.map.exits e r } }

/-- The part with one zone record replaced. -/
def setZoneRec (z : ZoneId) (r : Zone) (s : State) : State :=
  { s with map := { s.map with zones := store s.map.zones z r } }

/-- The part with one placement record replaced. -/
def setPlacement (h : HeadId) (r : Placement) (s : State) : State :=
  { s with map := { s.map with placements := store s.map.placements h r } }

/-- An accepted map request clears the map-validated flag (R11) and re-evaluates every defined exit (R40). -/
def acceptMap (s : State) : State := reevalExits true { s with map := { s.map with validated := false } }

/-- A map request is taken in SETUP alone (R1 check 1). -/
def inSetup (act : State → Served) (s : State) : Served := if s.mode = .setup then act s else refuse .wrongMode s

/-! ## Points (R2) -/

/-- The published record of a point follows its defined flag in SETUP, with the digest (R46, R47). -/
def followPoint (p : PointId) (s : State) : State :=
  replaceTable (store s.engine.table p (clearedRoute (look s.map.points p))) s

/-- A point record is written, and the cleared table follows (R2, R46). -/
def writePoint (p : PointId) (r : Point) (s : State) : State := acceptMap (followPoint p (setPointRec p r s))

/-- SET POINT with an action other than REMOVE: indices first, then values (R1). -/
def definePoint (p : PointId) (action kind zone : Byte) (s : State) : Served :=
  match zoneField zone with
  | none => refuse .badIndex s
  | some z =>
    match actionOf action, pointKindOf kind with
    | some true, some k => taken .done (writePoint p { defined := true, kind := k, zone := z } s)
    | _, _ => refuse .badValue s

/-- SET POINT (R1, R2); the fields of a REMOVE after its index are not checked (R172). -/
def setPoint (action index kind zone : Byte) : State → Served :=
  inSetup fun s =>
    match indexOf 240 index.toNat with
    | none => refuse .badIndex s
    | some p =>
      if actionOf action = some false then
        taken .done (writePoint p { look s.map.points p with defined := false } s)
      else definePoint p action kind zone s

/-! ## Aisles (R3 to R5) -/

/-- The index fields of SET AISLE: ends and zone in range (R4). -/
def aisleIndices (endA endB zone : Byte) : Option (PointId × PointId × Option ZoneId) :=
  match indexOf 240 endA.toNat, indexOf 240 endB.toNat, zoneField zone with
  | some a, some b, some z => some (a, b, z)
  | _, _, _ => none

/-- The structural values of SET AISLE lie in their ranges (R4). -/
def aisleValuesOk (length : Half) (width : Byte) : Bool :=
  1 ≤ length.toNat && length.toNat ≤ Config.lengthLimit && 1 ≤ width.toNat && width.toNat ≤ 4

/-- SET AISLE with an action other than REMOVE: indices first, then values; the blocked flag keeps its value (R1, R4). -/
def defineAisle (x : AisleId) (action endA endB : Byte) (length : Half) (width bearing passage zone : Byte) (s : State) :
    Served :=
  match aisleIndices endA endB zone with
  | none => refuse .badIndex s
  | some (a, b, z) =>
    match actionOf action, passageOf passage, indexOf 16 bearing.toNat with
    | some true, some p, some g =>
      if aisleValuesOk length width then
        taken .done
          (acceptMap
            (setAisleRec x
              { defined := true, endA := a, endB := b, length := length.toNat, width := width.toNat, bearing := g,
                passage := p, zone := z, blocked := (look s.map.aisles x).blocked } s))
      else refuse .badValue s
    | _, _, _ => refuse .badValue s

/-- SET AISLE (R1, R4); REMOVE clears the defined and the blocked flag. -/
def setAisle (action : Byte) (index : Half) (endA endB : Byte) (length : Half) (width bearing passage zone : Byte) :
    State → Served :=
  inSetup fun s =>
    match indexOf 480 index.toNat with
    | none => refuse .badIndex s
    | some x =>
      if actionOf action = some false then
        taken .done (acceptMap (setAisleRec x { look s.map.aisles x with defined := false, blocked := false } s))
      else defineAisle x action endA endB length width bearing passage zone s

/-- The aisle a two-byte index names, where it is in range and defined (R5). -/
def definedAisle (s : State) (index : Half) : Option AisleId :=
  match indexOf 480 index.toNat with
  | some x => if (look s.map.aisles x).defined then some x else none
  | none => none

/-- A blocked flag is written; a change of it is handed to the route engine: set tightening, cleared loosening (R5). -/
def writeBlocked (x : AisleId) (b : Bool) (s : State) : State :=
  if (look s.map.aisles x).blocked = b then s
  else
    handChange (if b then .tightening else .loosening) (setAisleRec x { look s.map.aisles x with blocked := b } s)

/-- BLOCK AISLE (R5). -/
def blockAisle (index : Half) (s : State) : Served :=
  match definedAisle s index with
  | none => refuse .badIndex s
  | some x => taken .done (writeBlocked x true s)

/-- OPEN AISLE (R5). -/
def openAisle (index : Half) (s : State) : Served :=
  match definedAisle s index with
  | none => refuse .badIndex s
  | some x => taken .done (writeBlocked x false s)

/-! ## Exits (R6, R39) -/

/-- The runtime fields of an exit that becomes defined, and after RESTART, with the availability that R40 then gives
(R39). -/
def freshExitRt (s : State) (e : ExitId) : ExitRt :=
  let c := freshContact (look s.map.exits e).contact
  { override := .auto
    bias := (look s.map.exits e).baseBias
    contact := c
    available := availability .auto c (exitZoneState s e)
    copyDue := (look s.map.exits e).contact.isSome }

/-- The exit monitor takes a *defined* event, or the new contact position of an exit that is defined already (R6, R39).
An exit that becomes defined gives no EXIT notice (R43). -/
def defineExitRt (wasDefined : Bool) (e : ExitId) (s : State) : State :=
  if wasDefined then
    setExitRt e
      { exitOf s e with
        contact := freshContact (look s.map.exits e).contact
        copyDue := (look s.map.exits e).contact.isSome } s
  else setExitRt e (freshExitRt s e) s

/-- The exit monitor takes a *removed* event: an exit that was AVAILABLE offers its EXIT notice (R39, R43). -/
def removeExitRt (e : ExitId) (s : State) : State :=
  let s1 := setExitRt e ExitRt.reset s
  if (exitOf s e).available then offer (.exit e false .auto .none none) s1 else s1

/-- The index fields of SET EXIT: the point and the contact position in range (R6). -/
def exitIndices (point row column : Byte) : Option (PointId × Option Position) :=
  match indexOf 240 point.toNat, contactField row column with
  | some p, some c => some (p, c)
  | _, _ => none

/-- SET EXIT with an action other than REMOVE: indices first, then the action; a base bias over 5000 is clamped (R1,
R6). -/
def defineExit (e : ExitId) (action point : Byte) (bias : Half) (row column : Byte) (s : State) : Served :=
  match exitIndices point row column with
  | none => refuse .badIndex s
  | some (p, c) =>
    if actionOf action = some true then
      taken (if Config.biasLimit < bias.toNat then .clamped else .done)
        (acceptMap
          (defineExitRt (look s.map.exits e).defined e
            (setExitRec e
              { defined := true, point := p, baseBias := clampTo 0 Config.biasLimit bias.toNat, contact := c } s)))
    else refuse .badValue s

/-- An exit becomes undefined; its other definition fields stay (R6, R172). -/
def removeExit (e : ExitId) (s : State) : State :=
  acceptMap (removeExitRt e (setExitRec e { look s.map.exits e with defined := false } s))

/-- SET EXIT (R1, R6). -/
def setExit (action index point : Byte) (bias : Half) (row column : Byte) : State → Served :=
  inSetup fun s =>
    match indexOf 24 index.toNat with
    | none => refuse .badIndex s
    | some e =>
      if actionOf action = some false then taken .done (removeExit e s)
      else defineExit e action point bias row column s

/-! ## Zones (R7) -/

/-- A threshold field of 0 selects its default (R7 step 1). -/
def thresholdField (b : Byte) (default : Nat) : Nat := if b.toNat = 0 then default else b.toNat

/-- The suspect threshold that a field stores (R7 steps 1 and 2). -/
def storedSuspect (suspect : Byte) : Nat := clampTo 1 254 (thresholdField suspect Config.defaultSuspect)

/-- The smoke threshold that a field stores (R7 steps 1 and 3). -/
def storedSmoke (suspect smoke : Byte) : Nat :=
  clampTo (storedSuspect suspect + 1) 255 (thresholdField smoke Config.defaultSmoke)

/-- Step 2 or step 3 of R7 changed a value. -/
def thresholdsClamped (suspect smoke : Byte) : Bool :=
  storedSuspect suspect != thresholdField suspect Config.defaultSuspect
    || storedSmoke suspect smoke != thresholdField smoke Config.defaultSmoke

/-- SET ZONE with an action other than REMOVE: the runtime part of a zone that was undefined takes its reset value
(R7, R22). -/
def defineZone (z : ZoneId) (action suspect smoke sup : Byte) (s : State) : Served :=
  match actionOf action, flagOf sup with
  | some true, some v =>
    let s1 := if (look s.map.zones z).defined then s else setZoneRt z ZoneRt.reset s
    taken (if thresholdsClamped suspect smoke then .clamped else .done)
      (acceptMap
        (setZoneRec z
          { defined := true, suspect := storedSuspect suspect, smoke := storedSmoke suspect smoke, supervised := v } s1))
  | _, _ => refuse .badValue s

/-- A zone becomes undefined, with its runtime part at its reset value (R7, R22). -/
def removeZone (z : ZoneId) (s : State) : State :=
  acceptMap (setZoneRt z ZoneRt.reset (setZoneRec z { look s.map.zones z with defined := false } s))

/-- SET ZONE (R1, R7). -/
def setZone (action index suspect smoke sup : Byte) : State → Served :=
  inSetup fun s =>
    match indexOf 64 index.toNat with
    | none => refuse .badIndex s
    | some z =>
      if actionOf action = some false then taken .done (removeZone z s) else defineZone z action suspect smoke sup s

/-! ## Placements (R8 to R10) -/

/-- Another defined placement holds the serial (R9 check 2). -/
def serialTaken (s : State) (h : HeadId) (serial : Serial) : Bool :=
  (firstIndex 64 fun k => k != h && (placementOf s k).defined && (placementOf s k).serial == serial).isSome

/-- A placement is written, and its serial leaves the stranger list (R9). -/
def writePlacement (h : HeadId) (r : Placement) (s : State) : State :=
  let s1 := setPlacement h r s
  acceptMap { s1 with heads := { s1.heads with strangers := withoutStranger r.serial s1.heads.strangers } }

/-- PLACE HEAD (R1, R9). -/
def placeHead (index : Byte) (serial : Serial) (point facing enabled : Byte) : State → Served :=
  inSetup fun s =>
    match indexOf 64 index.toNat, indexOf 240 point.toNat with
    | some h, some p =>
      match indexOf 16 facing.toNat, flagOf enabled with
      | some g, some v =>
        if (headOf s h).state ≠ .absent then refuse .inService s
        else if serialTaken s h serial then refuse .badValue s
        else taken .done (writePlacement h { defined := true, serial := serial, point := p, facing := g, enabled := v } s)
      | _, _ => refuse .badValue s
    | _, _ => refuse .badIndex s

/-- A defined placement is unplaced: its defined flag is cleared and its head becomes ABSENT (R10). -/
def unplace (h : HeadId) (s : State) : State :=
  if (placementOf s h).defined then
    enterAbsent false h (setPlacement h { placementOf s h with defined := false } s)
  else s

/-- UNPLACE HEAD (R1, R10). -/
def unplaceHead (index : Byte) : State → Served :=
  inSetup fun s =>
    match indexOf 64 index.toNat with
    | none => refuse .badIndex s
    | some h => taken .done (acceptMap (unplace h s))

/-! ## CLEAR MAP (R12) -/

/-- The *removed* event of an exit that was defined (R12). -/
def removeIfDefined (e : ExitId) (s : State) : State :=
  if (look s.map.exits e).defined then removeExitRt e s else s

/-- The *removed* events of CLEAR MAP for exits and zones, and the tables as after a hard reset (R12, Table 1.4). -/
def emptyTables (s : State) : State :=
  let s1 := forEach 24 removeIfDefined s
  { s1 with map := MapStore.reset, zones := Vector.replicate 64 ZoneRt.reset, exits := Vector.replicate 24 ExitRt.reset }

/-- CLEAR MAP: every placement unplaced first, then the tables emptied, the cleared table and its digest formed (R12,
R46; order of notices: log 20). -/
def clearMap : State → Served :=
  inSetup fun s =>
    let s1 := emptyTables (forEach 64 unplace s)
    taken .done (replaceTable (clearedTable s1.map) s1)

/-! ## SET SCRIPT and SET KIND MAP (R77, R83, R84) -/

/-- A LOOP at place n aims at an earlier LIGHT step with a count of at most 15; a LIGHT holds 1 to 8 beats (R83). -/
def stepOk (steps : List ScriptStep) (n : Nat) : ScriptStep → Bool
  | .light _ _ hold => 1 ≤ hold && hold ≤ 8
  | .loop target count =>
    target < n && count ≤ 15
      && (match steps[target]? with
        | some (.light _ _ _) => true
        | _ => false)
  | .finish => true

/-- The list of steps passes the checks of R83. -/
def scriptOk (steps : List ScriptStep) : Bool :=
  1 ≤ steps.length && steps.length ≤ Config.scriptStepLimit && steps.zipIdx.all fun e => stepOk steps e.2 e.1

/-- The payload of SET SCRIPT after its script number has the length that its action takes; an action that is neither
REMOVE nor DEFINE passes (R164). -/
def scriptLengthOk (action : Byte) (body : List Byte) : Bool :=
  match actionOf action with
  | some false => body.isEmpty
  | some true =>
    match body with
    | n :: steps => steps.length == 2 * n.toNat
    | [] => false
  | none => true

/-- The library with one script replaced, its generation one higher modulo 256 (R82, R84 step 1). -/
def writeScript (i : Fin 12) (steps : Option (List ScriptStep)) (s : State) : State :=
  { s with
    selector :=
      { s.selector with library := store s.selector.library i steps, generation := s.selector.generation + 1 } }

/-- An accepted SET SCRIPT, in the order of R84; the heads are told in ascending head index, and so their TEST notices
follow: the model's choice, log 20. -/
def editLibrary (i : Fin 12) (steps : Option (List ScriptStep)) (s : State) : State :=
  recomputeAll (forEach 64 reloadHead (acceptMap (writeScript i steps s)))

/-- The steps that a SET SCRIPT with DEFINE carries, where they pass R83. -/
def carriedSteps (body : List Byte) : Option (List ScriptStep) :=
  match stepsOf (body.drop 1) with
  | some steps => if scriptOk steps then some steps else none
  | none => none

/-- The checks of SET SCRIPT by the display selector: the script number, then the action and the steps (R1, R83). -/
def scriptRequest (action script : Byte) (body : List Byte) (s : State) : Served :=
  if script.toNat = 0 then refuse .badIndex s
  else
    match indexOf 12 (script.toNat - 1) with
    | none => refuse .badIndex s
    | some i =>
      match actionOf action with
      | some false => taken .done (editLibrary i none s)
      | some true =>
        match carriedSteps body with
        | some steps => taken .done (editLibrary i (some steps) s)
        | none => refuse .badValue s
      | none => refuse .badValue s

/-- SET SCRIPT (R83, R84, R164): the length before the mode. -/
def setScript (action script : Byte) (body : List Byte) (s : State) : Served :=
  if scriptLengthOk action body then inSetup (scriptRequest action script body) s else refuse .badLength s

/-- One entry of the kind map is written (R77). -/
def writeKindMap (i : Fin 10) (n : ScriptId) (s : State) : State :=
  { s with selector := { s.selector with kindMap := store s.selector.kindMap i n } }

/-- SET KIND MAP (R77). -/
def setKindMap (entry script : Byte) : State → Served :=
  inSetup fun s =>
    match indexOf 10 entry.toNat, indexOf 13 script.toNat with
    | some i, some n => taken .done (recomputeAll (acceptMap (writeKindMap i n s)))
    | _, _ => refuse .badIndex s

/-! ## Commands -/

/-- CLEAR_MAP (R12). -/
def execClearMap (tag : Byte) (s : State) : Host.Outcome State Fault Refusal :=
  .next (takeRequest (requestFrame (.clearMap tag)) clearMap s)

/-- SET_POINT (R2). -/
def execSetPoint (tag action index kind zone : Byte) (s : State) : Host.Outcome State Fault Refusal :=
  .next (takeRequest (requestFrame (.setPoint tag action index kind zone)) (setPoint action index kind zone) s)

/-- SET_AISLE (R4). -/
def execSetAisle (tag action : Byte) (index : Half) (endA endB : Byte) (length : Half)
    (width bearing passage zone : Byte) (s : State) : Host.Outcome State Fault Refusal :=
  .next
    (takeRequest (requestFrame (.setAisle tag action index endA endB length width bearing passage zone))
      (setAisle action index endA endB length width bearing passage zone) s)

/-- SET_EXIT (R6). -/
def execSetExit (tag action index point : Byte) (bias : Half) (row column : Byte) (s : State) :
    Host.Outcome State Fault Refusal :=
  .next
    (takeRequest (requestFrame (.setExit tag action index point bias row column))
      (setExit action index point bias row column) s)

/-- SET_ZONE (R7). -/
def execSetZone (tag action index suspect smoke sup : Byte) (s : State) : Host.Outcome State Fault Refusal :=
  .next
    (takeRequest (requestFrame (.setZone tag action index suspect smoke sup)) (setZone action index suspect smoke sup) s)

/-- PLACE_HEAD (R9). -/
def execPlaceHead (tag index : Byte) (serial : Serial) (point facing enabled : Byte) (s : State) :
    Host.Outcome State Fault Refusal :=
  .next
    (takeRequest (requestFrame (.placeHead tag index serial point facing enabled))
      (placeHead index serial point facing enabled) s)

/-- UNPLACE_HEAD (R10). -/
def execUnplaceHead (tag index : Byte) (s : State) : Host.Outcome State Fault Refusal :=
  .next (takeRequest (requestFrame (.unplaceHead tag index)) (unplaceHead index) s)

/-- SET_SCRIPT (R83, R84). -/
def execSetScript (tag action script : Byte) (body : List Byte) (s : State) : Host.Outcome State Fault Refusal :=
  .next (takeRequest (requestFrame (.setScript tag action script body)) (setScript action script body) s)

/-- SET_KIND_MAP (R77). -/
def execSetKindMap (tag entry script : Byte) (s : State) : Host.Outcome State Fault Refusal :=
  .next (takeRequest (requestFrame (.setKindMap tag entry script)) (setKindMap entry script) s)

/-- BLOCK_AISLE (R5). -/
def execBlockAisle (tag : Byte) (index : Half) (s : State) : Host.Outcome State Fault Refusal :=
  .next (takeRequest (requestFrame (.blockAisle tag index)) (blockAisle index) s)

/-- OPEN_AISLE (R5). -/
def execOpenAisle (tag : Byte) (index : Half) (s : State) : Host.Outcome State Fault Refusal :=
  .next (takeRequest (requestFrame (.openAisle tag index)) (openAisle index) s)

end Sys2Proof.Machine
end

