-- ==== Sys2Proof/Machine/Modes.lean ====
section
/-! DEFINITION. The mode controller (section 9), validation (1.9), the timing settings and the resets. -/

namespace Sys2Proof.Machine

/-! ## Validation checks (R15, R16) -/

/-- A record that a check finds, as a failure record (R15). -/
def failureAt {n : Nat} (check : Nat) (table : FailTable) (i : Option (Fin n)) : Option Failure :=
  i.map fun i => { check := check, table := table, index := i.val }

/-- A point is defined. -/
def pointDefined (m : MapStore) (p : PointId) : Bool := (look m.points p).defined

/-- Check 1: a point and an exit are defined (Table 1.2). -/
def check1 (m : MapStore) : Option Failure :=
  if (firstIndex 240 (pointDefined m)).isNone then some { check := 1, table := .none, index := 0 }
  else if (firstIndex 24 fun e => (look m.exits e).defined).isNone then some { check := 1, table := .none, index := 1 }
  else none

/-- A defined aisle whose ends are not two defined, distinct points (Table 1.2). -/
def badAisle (m : MapStore) (x : AisleId) : Bool :=
  let a := look m.aisles x
  a.defined && !(pointDefined m a.endA && pointDefined m a.endB && a.endA != a.endB)

/-- Check 2 (Table 1.2). -/
def check2 (m : MapStore) : Option Failure := failureAt 2 .aisle (firstIndex 480 (badAisle m))

/-- A point is a defined point of kind EXIT. -/
def isExitPoint (m : MapStore) (p : PointId) : Bool := pointDefined m p && (look m.points p).kind == .exit

/-- A defined exit that names no defined EXIT point (Table 1.2). -/
def badExit (m : MapStore) (e : ExitId) : Bool := (look m.exits e).defined && !isExitPoint m (look m.exits e).point

/-- How many defined exits name a point. -/
def exitsNaming (m : MapStore) (p : PointId) : Nat :=
  countIndex 24 fun e => (look m.exits e).defined && (look m.exits e).point == p

/-- A defined EXIT point that no exit or more than one names (Table 1.2). -/
def badExitPoint (m : MapStore) (p : PointId) : Bool := isExitPoint m p && exitsNaming m p != 1

/-- Check 3: exits, then points (Table 1.2). -/
def check3 (m : MapStore) : Option Failure :=
  (failureAt 3 .exit (firstIndex 24 (badExit m))).or (failureAt 3 .point (firstIndex 240 (badExitPoint m)))

/-- The reachable marks of check 4. -/
abbrev Marks := Vector Bool 240

/-- v is marked where u is, people being allowed to walk from v to u; the flag says that a mark was made (R16 step 2). -/
def markFrom (v u : PointId) (w : Marks × Bool) : Marks × Bool :=
  if look w.1 u && !look w.1 v then (store w.1 v true, true) else w

/-- One defined aisle of a reachability sweep, in its permitted directions; blocks and hazards play no part (R16). -/
def markAisle (m : MapStore) (x : AisleId) (w : Marks × Bool) : Marks × Bool :=
  let a := look m.aisles x
  if a.defined then
    let w1 := if a.passage.fromA then markFrom a.endA a.endB w else w
    if a.passage.fromB then markFrom a.endB a.endA w1 else w1
  else w

/-- Sweeps until one marks nothing, at most the given number of them (R16 step 3). -/
def markSweeps (m : MapStore) : Nat → Marks → Marks
  | 0, marks => marks
  | fuel + 1, marks =>
    let w := forEach 480 (markAisle m) (marks, false)
    if w.2 then markSweeps m fuel w.1 else w.1

/-- The points from which an EXIT point can be reached (R16). -/
def reachableMarks (m : MapStore) : Marks := markSweeps m Config.sweepLimit (tabulate 240 (isExitPoint m))

/-- Check 4 (R16, Table 1.2). -/
def check4 (m : MapStore) : Option Failure :=
  let marks := reachableMarks m
  failureAt 4 .point (firstIndex 240 fun p => pointDefined m p && !look marks p)

/-- A named zone is not defined. -/
def zoneMissing (m : MapStore) : Option ZoneId → Bool
  | some z => !(look m.zones z).defined
  | none => false

/-- Check 5: points, then aisles (Table 1.2). -/
def check5 (m : MapStore) : Option Failure :=
  (failureAt 5 .point (firstIndex 240 fun p => pointDefined m p && zoneMissing m (look m.points p).zone)).or
    (failureAt 5 .aisle (firstIndex 480 fun x => (look m.aisles x).defined && zoneMissing m (look m.aisles x).zone))

/-- Check 6 (Table 1.2). -/
def check6 (m : MapStore) : Option Failure :=
  failureAt 6 .placement
    (firstIndex 64 fun h =>
      (look m.placements h).defined && (look m.placements h).enabled && !pointDefined m (look m.placements h).point)

/-- Check 7 (Table 1.2). -/
def check7 (sel : Selector) : Option Failure :=
  failureAt 7 .kindMap
    (firstIndex 10 fun i => (look sel.kindMap i).val != 0 && (scriptOf sel (look sel.kindMap i)).isNone)

/-- The first record that fails, in the order of Table 1.2; none where all seven checks pass (R15). -/
def validate (s : State) : Option Failure :=
  (check1 s.map).or <| (check2 s.map).or <| (check3 s.map).or <| (check4 s.map).or <| (check5 s.map).or <|
    (check6 s.map).or (check7 s.selector)

/-! ## Changes of mode (R151) -/

/-- A change of mode, in the order of R151: written, noticed, acted on, displays recomputed. -/
def changeMode (new : Mode) (cause : ModeCause) (outcome : ModeOutcome) (zone : Option ZoneId) (act : State → State)
    (s : State) : State :=
  recomputeAll (act (offer (.mode (some s.mode) new cause outcome zone) { s with mode := new }))

/-- A defined zone in SMOKE. -/
def zoneInSmoke (s : State) (z : ZoneId) : Bool := (look s.map.zones z).defined && (zoneOf s z).state == .smoke

/-- The second case of R34: entry into GUARD with AUTO_ALARM set finds zones in SMOKE; the lowest index is carried
(R154). -/
def requestOnEntry (s : State) : State :=
  match firstIndex 64 (zoneInSmoke s) with
  | some z => requestAlarm z s
  | none => s

/-- What entry into GUARD starts in the zone monitor (R30, R34). -/
def enterGuard (s : State) : State := requestOnEntry (guardSilences s)

/-- The last validation result is written (R20). -/
def setResult (v : Validation) (s : State) : State := { s with map := { s.map with lastValidation := v } }

/-- The runtime bias of a defined exit is loaded from its base bias (R17). -/
def loadBias (e : ExitId) (s : State) : State :=
  if (look s.map.exits e).defined then setExitRt e { exitOf s e with bias := (look s.map.exits e).baseBias } s else s

/-- Validation passes (R17). -/
def passValidation (s : State) : State :=
  let s1 := setResult .passed { s with map := { s.map with validated := true } }
  changeMode .guard .passed .passed none (fun s => enterGuard (startRun s)) (forEach 24 loadBias s1)

/-- Validation fails (R18). -/
def failValidation (f : Failure) (s : State) : State :=
  changeMode .setup .failed (.failed f) none id (setResult (.failed f) { s with map := { s.map with validated := false } })

/-- The checks end; nothing happens where the mode is not VALIDATING (R15, log 5). -/
def completeValidation (s : State) : State :=
  if s.mode = .validating then
    match validate s with
    | none => passValidation s
    | some f => failValidation f s
  else s

/-! ## Mode requests (R14, R19, R153 to R155) -/

/-- ARM (R14). -/
def arm (s : State) : Served :=
  if s.mode = .setup then taken .done (changeMode .validating .arm .none none id (setResult .running s))
  else refuse .wrongMode s

/-- DISARM: to SETUP from GUARD (R153), validation cancelled from VALIDATING (R19). -/
def disarm (s : State) : Served :=
  match s.mode with
  | .guard => taken .done (changeMode .setup .disarm .none none disarmEngine s)
  | .validating => taken .done (changeMode .setup .cancelled .cancelled none id (setResult .cancelled s))
  | .setup => refuse .wrongMode s
  | .alarm => refuse .wrongMode s

/-- ALARM from the host (R154). -/
def alarm (s : State) : Served :=
  if s.mode = .guard then taken .done (changeMode .alarm .alarm .none none id s) else refuse .wrongMode s

/-- An automatic request for ALARM reaches the mode controller; it is ignored outside GUARD, and where none is on its
way nothing happens (R34, R154, log 9). -/
def autoAlarm (s : State) : State :=
  match s.alarmRequests with
  | [] => s
  | z :: rest =>
    let s1 := { s with alarmRequests := rest }
    if s.mode = .guard then changeMode .alarm .autoAlarm .none (some z) id s1 else s1

/-- A defined zone in SMOKE or CLEARING (R155). -/
def zoneActive (s : State) (z : ZoneId) : Bool :=
  (look s.map.zones z).defined && ((zoneOf s z).state == .smoke || (zoneOf s z).state == .clearing)

/-- STAND DOWN (R155). -/
def standDown (s : State) : Served :=
  if s.mode ≠ .alarm then refuse .wrongMode s
  else if s.timing.autoAlarm ∧ (firstIndex 64 (zoneActive s)).isSome then refuse .zonesActive s
  else taken .done (changeMode .guard .standDown .none none enterGuard s)

/-! ## SET TIMING (R156) -/

/-- The settings with one of them written: numbered as in Table 9.1, clamped to its range. `none` where the code is no
setting, or AUTO_ALARM is given neither set nor clear. -/
def timingWith (code value : Nat) (t : Timing) : Option Timing :=
  match code with
  | 0 => some { t with confirmTime := clampTo 2 30 value }
  | 1 => some { t with clearHold := clampTo 10 600 value }
  | 2 => some { t with silenceTime := clampTo 5 120 value }
  | 3 =>
    match value with
    | 0 => some { t with autoAlarm := false }
    | 1 => some { t with autoAlarm := true }
    | _ => none
  | 4 => some { t with hystAbs := clampTo 0 2000 value }
  | 5 => some { t with hystPct := clampTo 0 50 value }
  | 6 => some { t with phaseUnit := clampTo 10 5000 value }
  | 7 => some { t with takeoverWait := clampTo 600 5000 value }
  | _ => none

/-- A setting's value as a number, in the order of Table 9.1 (R166). -/
def timingValue (t : Timing) (code : Nat) : Nat :=
  match code with
  | 0 => t.confirmTime
  | 1 => t.clearHold
  | 2 => t.silenceTime
  | 3 => if t.autoAlarm then 1 else 0
  | 4 => t.hystAbs
  | 5 => t.hystPct
  | 6 => t.phaseUnit
  | _ => t.takeoverWait

/-- The settings are stored; a changed PHASE_UNIT recomputes every desired display (R79, R156). -/
def storeTiming (t : Timing) (s : State) : State :=
  let s1 := { s with timing := t }
  if t.phaseUnit = s.timing.phaseUnit then s1 else recomputeAll s1

/-- SET TIMING (R156): CLAMPED where the value stored is not the value sent. -/
def setTiming (setting : Byte) (value : Half) (s : State) : Served :=
  if s.mode = .setup ∨ s.mode = .guard then
    match timingWith setting.toNat value.toNat s.timing with
    | none => refuse .badValue s
    | some t =>
      taken (if timingValue t setting.toNat = value.toNat then .done else .clamped) (storeTiming t s)
  else refuse .wrongMode s

/-! ## RESTART (R158) -/

/-- RESTART step 1: notices, loss mark and frame discarded flag. -/
def restartLink (s : State) : State :=
  { s with link := { s.link with notices := [], lossMark := false, discarded := false } }

/-- A defined exit takes its RESTART values; a change of availability gives its EXIT notice and hands nothing (R39,
R158). -/
def restartExit (e : ExitId) (s : State) : State :=
  if (look s.map.exits e).defined then
    reevalExit false e (setExitRt e { freshExitRt s e with available := (exitOf s e).available } s)
  else s

/-- Every aisle blocked flag is cleared (R5). -/
def openAisles (s : State) : State :=
  { s with
    map := { s.map with aisles := tabulate 480 fun x => { look s.map.aisles x with blocked := false } } }

/-- RESTART step 3 (R158): zones, scanner, exits, blocked flags, engine. The EXIT notices of several exits follow in
ascending exit index: the model's choice, log 37. -/
def restartBlocks (s : State) : State :=
  let s1 :=
    { s with zones := Vector.replicate 64 ZoneRt.reset, scanner := Vector.replicate 32 Contact.reset }
  clearEngine (openAisles (forEach 24 restartExit s1))

/-- The mode that RESTART gives (R158 step 4). -/
def restartMode (s : State) : Mode := if s.map.validated then .guard else .setup

/-- RESTART step 5: the silence timers and the route run of GUARD. -/
def restartGuard (s : State) : State := if s.mode = .guard then startRun (enterGuard s) else s

/-- RESTART, in the order of R158. -/
def restart (s : State) : Served :=
  if s.mode = .alarm then refuse .wrongMode s
  else
    let s1 := restartLink s
    let s2 := if s.mode = .validating then setResult .cancelled s1 else s1
    taken .done
      (changeMode (restartMode s) .restart (if s.mode = .validating then .cancelled else .none) none restartGuard
        (restartBlocks s2))

/-! ## Hard reset (R157) -/

/-- A hard reset that latches the straps given. The commands that wait are outside the part and stay, and so do the sign
heads, which are other devices (log 28). -/
def hardReset (speed : BitVec 2) (pairEn : Bool) (role : Role) (s : State) : State :=
  { State.reset with
    bus := Bus.reset pairEn
    pair := PairUnit.reset pairEn role
    link := Link.reset speed
    devices := s.devices
    heard := s.heard
    pending := s.pending }

/-! ## Commands -/

/-- HARD_RESET (R157). -/
def execHardReset (speed : BitVec 2) (pairEn : Bool) (role : Role) (s : State) : Host.Outcome State Fault Refusal :=
  .next (hardReset speed pairEn role s)

/-- RESTART (R158). -/
def execRestart (tag : Byte) (s : State) : Host.Outcome State Fault Refusal :=
  .next (takeRequest (requestFrame (.restart tag)) restart s)

/-- ARM (R14). -/
def execArm (tag : Byte) (s : State) : Host.Outcome State Fault Refusal :=
  .next (takeRequest (requestFrame (.arm tag)) arm s)

/-- DISARM (R19, R153). -/
def execDisarm (tag : Byte) (s : State) : Host.Outcome State Fault Refusal :=
  .next (takeRequest (requestFrame (.disarm tag)) disarm s)

/-- ALARM (R154). -/
def execAlarm (tag : Byte) (s : State) : Host.Outcome State Fault Refusal :=
  .next (takeRequest (requestFrame (.alarm tag)) alarm s)

/-- STAND_DOWN (R155). -/
def execStandDown (tag : Byte) (s : State) : Host.Outcome State Fault Refusal :=
  .next (takeRequest (requestFrame (.standDown tag)) standDown s)

/-- SET_TIMING (R156). -/
def execSetTiming (tag setting : Byte) (value : Half) (s : State) : Host.Outcome State Fault Refusal :=
  .next (takeRequest (requestFrame (.setTiming tag setting value)) (setTiming setting value) s)

/-- VALIDATION_COMPLETE (R15 to R18). -/
def execValidationComplete (s : State) : Host.Outcome State Fault Refusal := .next (completeValidation s)

/-- AUTO_ALARM_REQUEST (R34, R154). -/
def execAutoAlarmRequest (s : State) : Host.Outcome State Fault Refusal := .next (autoAlarm s)

end Sys2Proof.Machine
end

