-- ==== Sys2Proof/Machine/PairUnit.lean ====
section
/-! DEFINITION. Operations of the pair unit that several commands share (section 8): notices, claim wait, partner frames,
the partner exchange. -/

namespace Sys2Proof.Machine

/-- The PAIR notice of an event, from the part as the event leaves it (R149). -/
def pairNotice (s : State) (cause : PairCause) (before : PairState) : Notice :=
  .pair cause before s.pair.state s.pair.role s.engine.digest s.pair.report

/-- A PAIR notice is offered (R149). -/
def offerPair (cause : PairCause) (before : PairState) (s : State) : State := offer (pairNotice s cause before) s

/-- The claim wait in ms (Table 8.3). -/
def claimWait (s : State) : Nat :=
  if s.pair.afterYield then 3 * s.timing.takeoverWait
  else
    match s.pair.role with
    | .a => s.timing.takeoverWait
    | .b => 2 * s.timing.takeoverWait

/-- The silence timer starts with the claim wait (R137). -/
def startPairSilence (s : State) : State := { s with pair := { s.pair with silence := some (s.now + claimWait s) } }

/-- The controller leaves the transmitting pair states: the release-all mark is cleared and the line is released (R101,
R141, R142). -/
def stopDriving (s : State) : State := { s with bus := { s.bus with releaseAll := false, line := none } }

/-- A claim is given up: HOLD released, guard stopped, RESERVE with its silence timer, PAIR notice (R139). -/
def giveUpClaim (cause : PairCause) (s : State) : State :=
  offerPair cause s.pair.state
    (startPairSilence { s with pair := { s.pair with state := .reserve, hold := false, guard := none } })

/-- A partner frame at an observing controller: the silence timer restarts in RESERVE, a claim ends in CLAIMING, and
ISOLATED takes nothing from it (R137 to R139). -/
def partnerFrame (s : State) : State :=
  match s.pair.state with
  | .reserve => startPairSilence { s with pair := { s.pair with stuck := false, afterYield := false } }
  | .claiming => giveUpClaim .claimWithdrawn { s with pair := { s.pair with stuck := false } }
  | _ => s

/-- The slot that the frame timing of an observing controller gives for this moment (R100, R143, log 43). More than 200 ms
after the last observed frame start, where a BEAT was not read, it stays at 99: the model's choice, log 43. -/
def countSlot (s : State) : State :=
  let slot (start : Nat) : SlotId := Fin.ofNat 100 (min 99 ((s.now - start) / Config.slotTime))
  { s with bus := { s.bus with frame := s.bus.frame.map fun f => { f with slot := slot f.start } } }

/-- A partner frame at an observing controller, whose slot count follows from the frame start (R137, R143). -/
def observePartner (s : State) : State := countSlot (partnerFrame s)

/-- The mismatch count after two digests are compared (R147). -/
def compareDigests (partner : Half) (s : State) : State :=
  if partner = s.engine.digest then { s with pair := { s.pair with mismatch := 0 } }
  else
    let s1 := { s with pair := { s.pair with mismatch := min Config.mismatchLimit (s.pair.mismatch + 1) } }
    if s.pair.mismatch + 1 = Config.mismatchLimit then offerPair .digestMismatch s.pair.state s1 else s1

/-- A partner slot without a valid exchange sets the mismatch count to 0 (R147). -/
def missedExchange (s : State) : State := { s with pair := { s.pair with mismatch := 0 } }

/-- The lost count rises, and at 10 it is reported (R148). -/
def raiseLost (s : State) : State :=
  let s1 := { s with pair := { s.pair with lost := min Config.lostLimit (s.pair.lost + 1) } }
  if s.pair.lost + 1 = Config.lostLimit then offerPair .partnerLost s.pair.state s1 else s1

/-- A valid partner reply (R146). -/
def partnerReplied (digest : Half) (mode state : Byte) (s : State) : State :=
  compareDigests digest
    { s with pair := { s.pair with report := some { digest := digest, mode := mode, state := state }, lost := 0 } }

/-- The pair unit of the bus owner takes the end of its partner slot (R146). -/
def partnerOutcome (w : WindowClass) (s : State) : State :=
  match w with
  | .valid (.partner d m p) => partnerReplied d m p s
  | _ => missedExchange (raiseLost s)

end Sys2Proof.Machine
end

