-- ==== Sys2Proof/Machine/SignHeads.lean ====
section
/-! DEFINITION. What sign heads do on their side of the bus, as far as the manual describes it (R85 to R87, R109 to R112,
R114, R116). The part sees none of it but the replies, and no rule of the part reads it (log 28). -/

namespace Sys2Proof.Machine

/-! ## Running a script (R86) -/

/-- The counter of the LOOP at a step; none where it is idle (R86). -/
def counterOf (counters : List (Nat × Nat)) (k : Nat) : Option Nat := (counters.find? fun c => c.1 == k).map (·.2)

/-- A LOOP counter written, or made idle (R86). -/
def setCounter (counters : List (Nat × Nat)) (k : Nat) (v : Option Nat) : List (Nat × Nat) :=
  match v with
  | some n => (k, n) :: counters.filter fun c => c.1 != k
  | none => counters.filter fun c => c.1 != k

/-- Steps taken from step k until one that lasts: a LIGHT, an END or the end of the script (R86). The fuel bounds the
LOOPs taken at one beat; each goes back to a LIGHT, or on. -/
def runSteps (steps : List ScriptStep) : Nat → Nat → Playing → Playing
  | 0, _, p => p
  | fuel + 1, k, p =>
    match steps[k]? with
    | none => { p with step := k, hold := 0 }
    | some .finish => { p with step := k, hold := 0 }
    | some (.light arrow glyph hold) => { p with step := k, hold := hold, arrowLevel := arrow, glyphLevel := glyph }
    | some (.loop target 0) => runSteps steps fuel target p
    | some (.loop target (n + 1)) =>
      match (counterOf p.counters k).getD (n + 1) with
      | c + 1 => runSteps steps fuel target { p with counters := setCounter p.counters k (some c) }
      | 0 => runSteps steps fuel (k + 1) { p with counters := setCounter p.counters k none }

/-- A script at its restart: step 0, counters idle, dark until a LIGHT (R85, R86). -/
def startScript (steps : List ScriptStep) : Playing :=
  runSteps steps (steps.length + 2) 0 { step := 0, hold := 0, counters := [], arrowLevel := 0, glyphLevel := 0 }

/-- One beat between restarts: the hold runs on, and after it the next step begins; an ended script holds (R86). -/
def advanceScript (steps : List ScriptStep) (p : Playing) : Playing :=
  match p.hold with
  | 0 => p
  | 1 => runSteps steps (steps.length + 2) (p.step + 1) p
  | h + 2 => { p with hold := h + 1 }

/-- The script clock of a display at a beat (R85). -/
def scriptClock (beat : Byte) (d : Display) : Nat := (beat.toNat + d.phase.val) % Config.clockModulus

/-- The script that a head's display names, where the head may run it: script 0 is not stepped (R86), nor is a script
whose closing SCRIPT is awaited (R111). -/
def runnable (dev : Device) : Option (List ScriptStep) :=
  match dev.display with
  | some d =>
    if d.script.val = 0 ∨ dev.awaiting.isSome then none
    else (dev.scripts.find? fun x => x.1 == d.script.val).map (·.2)
  | none => none

/-- A beat at a head that shows a display (R85, R86). A head that the part holds in LOADING or RECOVERING steps on as one in
SERVING does, at the same step number also over a copy of its script that a SCRIPT block has replaced: the model's choice,
log 28. -/
def beatScript (beat : Byte) (dev : Device) : Device :=
  match dev.display, runnable dev with
  | some d, some steps =>
    if scriptClock beat d = 0 then { dev with playing := some (startScript steps) }
    else { dev with playing := dev.playing.map (advanceScript steps) }
  | _, _ => { dev with playing := none }

/-! ## What a head shows (R86, R87, R114) -/

/-- The level of the glyph: the script's; full as with script 0; without an address steady, or blinking with the beat in
mode class alarm. A head with an address and no display yet, of which R109 says only that it shows no arrow, lights its
glyph at full level: the model's choice, log 45. -/
def glyphLevel (dev : Device) : Nat :=
  match dev.address, dev.playing with
  | none, _ => if dev.alarmClass ∧ dev.lastBeat.toNat % 2 = 1 then 0 else 15
  | some _, some p => p.glyphLevel
  | some _, none => 15

/-- The arrow segment lit and its level; none for a head without an address or a display, or with arrow NONE. -/
def arrowShown (dev : Device) : Option (ArrowId × Nat) :=
  match dev.address, dev.display with
  | some _, some d => d.arrow.map fun k => (k, match dev.playing with | some p => p.arrowLevel | none => 15)
  | _, _ => none

/-! ## Address (R109, R114, R116) -/

/-- An address is dropped, with the loaded generation and the display (R114). -/
def dropAddress (dev : Device) : Device :=
  { dev with address := none, beats := 0, generation := none, display := none, playing := none, awaiting := none }

/-- The beat number and the mode class of a BEAT or RELEASE ALL, taken by a head (R85, R114). -/
def noteBeat (x : Heard) (dev : Device) : Device := { dev with lastBeat := x.beat, alarmClass := x.alarm }

/-- A BEAT frame at a head: the beat number and the mode class are taken, the script steps, and the tenth BEAT without a
command drops the address (R85, R114). -/
def hearBeat (x : Heard) (dev : Device) : Device :=
  let d1 := beatScript x.beat { noteBeat x dev with beats := dev.beats + 1 }
  if d1.address.isSome ∧ Config.beatsToDrop ≤ d1.beats then dropAddress d1 else d1

/-- A RELEASE ALL frame at a head (R114, R116). -/
def hearRelease (x : Heard) (dev : Device) : Device := noteBeat x (dropAddress dev)

/-- An addressed command at a head: one at its address ends its count of BEATs, and an ASSIGN at its address for
another serial drops the address (R109, R114). -/
def hearCommand (address : Byte) (c : BusCommand) (dev : Device) : Device :=
  if dev.address = some address then
    match c with
    | .assign serial => if dev.serial = serial then { dev with beats := 0 } else dropAddress dev
    | _ => { dev with beats := 0 }
  else dev

/-! ## What an ACK shows that the head has done (R87, R109 to R112) -/

/-- A head that has acted on an ASSIGN (R109). -/
def assigned (address : Byte) (dev : Device) : Device :=
  { dev with
    address := some address, beats := 0, generation := none, scripts := [], display := none, playing := none,
    awaiting := none }

/-- A block acknowledged: block 0 replaces the copy of the script, block 1 adds to it (R110). -/
def takeBlock (script block : Nat) (steps : List ScriptStep) (scripts : List (Nat × List ScriptStep)) :
    List (Nat × List ScriptStep) :=
  let held := ((scripts.find? fun x => x.1 == script).map (·.2)).getD []
  (script, if block = 0 then steps else held ++ steps) :: scripts.filter fun x => x.1 != script

/-- A SCRIPT acknowledged; the closing SCRIPT gives the loaded generation, and ends a wait for it (R110, R111). -/
def scripted (generation script block : Byte) (steps : List Half) (dev : Device) : Device :=
  if script.toNat = 0 then
    { dev with
      generation := some generation, awaiting := if dev.awaiting = some generation then none else dev.awaiting }
  else { dev with scripts := takeBlock script.toNat block.toNat (steps.filterMap stepOf) dev.scripts }

/-- A display acknowledged: the script runs on where script and phase are as before, and otherwise the head shows it as
with script 0 until the new script clock is 0 (R87). A wait that an earlier RESYNC began ends with that RESYNC's display. -/
def shown (d : Display) (dev : Device) : Device :=
  let same :=
    match dev.display with
    | some old => old.script == d.script && old.phase == d.phase
    | none => false
  { dev with display := some d, playing := if same then dev.playing else none, awaiting := none }

/-- A RESYNC acknowledged: a head whose loaded generation differs shows script 0 until the closing SCRIPT (R111). -/
def resynced (address generation : Byte) (d : Display) (dev : Device) : Device :=
  let d1 := { shown d dev with address := some address, beats := 0 }
  if dev.generation = some generation then d1
  else { d1 with awaiting := some generation, playing := none }

/-- The head that a command is meant for: by serial for ASSIGN and RESYNC, by address otherwise. -/
def meant (address : Byte) (c : BusCommand) (dev : Device) : Bool :=
  match c with
  | .assign serial => dev.serial == serial
  | .resync serial _ _ _ => dev.serial == serial
  | _ => dev.address == some address

/-- What a head has done that answers ACK (R109 to R111). -/
def acted (address : Byte) (c : BusCommand) (dev : Device) : Device :=
  if meant address c dev then
    match c with
    | .assign _ => assigned address dev
    | .script g sc b steps => scripted g sc b steps dev
    | .display d => shown d dev
    | .resync _ a g d => resynced a g d dev
    | _ => dev
  else dev

/-! ## The heads on the bus -/

/-- A head that has just been powered (R114). -/
def Device.fresh (serial : Serial) : Device :=
  { serial := serial, address := none, beats := 0, lastBeat := 0, alarmClass := false, generation := none, scripts := [],
    display := none, playing := none, awaiting := none }

/-- Every head on the bus takes a frame. -/
def eachHead (f : Device → Device) (s : State) : State := { s with devices := s.devices.map f }

/-- Every head on the bus takes a BEAT or RELEASE ALL, a head not heard of yet among them (R85, R114, R116). -/
def eachHears (f : Heard → Device → Device) (x : Heard) (s : State) : State := { eachHead (f x) s with heard := some x }

/-- A head first heard at an INVITE: it has received the last BEAT or RELEASE ALL, which was slot 0 of that frame, and
was just powered where there was none (R104, R114, log 44). -/
def newcomer (s : State) (serial : Serial) : Device :=
  match s.heard with
  | some x => noteBeat x (Device.fresh serial)
  | none => Device.fresh serial

/-- An ACK in a reply window shows what its head has done. -/
def headsActed (address : Byte) (c : BusCommand) (w : WindowClass) (s : State) : State :=
  match w with
  | .valid .ack => eachHead (acted address c) s
  | .valid (.ackStatus _) => eachHead (acted address c) s
  | _ => s

/-- A head that announces holds no address (R105); one not heard before joins the list. -/
def headAnnounced (serial : Serial) (s : State) : State :=
  if s.devices.any fun d => d.serial == serial then
    eachHead (fun d => if d.serial = serial then { dropAddress d with beats := d.beats } else d) s
  else { s with devices := s.devices ++ [newcomer s serial] }

end Sys2Proof.Machine
end

