-- ==== Sys2Proof/Machine/Bus.lean ====
section
/-! DEFINITION. The sign bus controller (section 6): the frame plan, the slots, completion, RESTART BUS. -/

namespace Sys2Proof.Machine

/-! ## Frame plan (R102) -/

/-- A head is in the in-service set (R102). -/
def inService (st : HeadState) : Bool := st == .joining || st == .loading || st == .serving || st == .recovering

/-- The heads of the in-service set in ascending head index (R102). -/
def inServiceHeads (s : State) : List HeadId := (List.finRange 64).filter fun h => inService (headOf s h).state

/-- The slot of the i-th of n POLL slots: 3 + floor(i × 97 / n) (Table 6.3). -/
def pollSlotOf (i n : Nat) : Nat := 3 + i * 97 / n

/-- The head whose POLL slot is slot k (Table 6.3). -/
def pollHead (heads : List HeadId) (k : Nat) : Option HeadId :=
  (heads.zipIdx.find? fun e => pollSlotOf e.2 heads.length == k).map (·.1)

/-- The kind of slot k of a frame (Table 6.3). -/
def slotKindAt (releaseAll pairEn : Bool) (heads : List HeadId) (k : Nat) : SlotKind :=
  match k with
  | 0 => if releaseAll then .releaseAll else .beat
  | 1 => .enrol
  | 2 => if pairEn then .partner else .update
  | k =>
    match pollHead heads k with
    | some h => .poll h
    | none => .update

/-- The frame plan built from the head records as they stand, at slot 0 alone (R102, log 36). -/
def buildPlan (s : State) : Vector SlotKind 100 :=
  let heads := inServiceHeads s
  tabulate 100 fun k => slotKindAt s.bus.releaseAll s.pair.enabled heads k.val

/-- The number of POLL slots of a plan (R101). -/
def pollCount (plan : Option (Vector SlotKind 100)) : Nat :=
  match plan with
  | some v => countIndex 100 fun k => match look v k with | .poll _ => true | _ => false
  | none => 0

/-! ## Frames and slots (R100, R104, R116) -/

/-- The mode class as sent (Table 11.1). -/
def modeClassCode (s : State) : Byte := flagCode (alarmClass s)

/-- A frame starts: held marks cleared, plan built, slot 0 (R91, R102). -/
def startFrame (start : Nat) (s : State) : State :=
  let s1 := { s with queue := clearHeld s.queue }
  { s1 with bus := { s1.bus with frame := some { start := start, slot := 0 }, plan := some (buildPlan s1) } }

/-- When the next frame starts: 200 ms after the present one, or now where there is none or that moment is past (R100,
log 4). -/
def nextStart (s : State) : Nat :=
  match s.bus.frame with
  | some f => max s.now (f.start + Config.frameTime)
  | none => s.now

/-- The broadcast of slot 0: the next beat is carried and rises by one (R104, R116). The slot has no window, so its
transaction completes with it (R113, log 7). -/
def broadcastBeat (command : Byte → Byte → BusCommand) (s : State) : State :=
  let b := s.bus.nextBeat
  { s with
    bus :=
      { s.bus with
        beat := b, nextBeat := b + 1, inFlight := none
        line := some (commandFrame Config.broadcastAddress (command b (modeClassCode s))).bytes } }

/-- What the broadcast of slot 0 tells the heads (R104, R116). -/
def broadcastHeard (s : State) : Heard := { beat := s.bus.nextBeat, alarm := alarmClass s }

/-- Slot 0 with a BEAT, in a frame that starts at the time given (R104). -/
def sendBeat (start : Nat) (s : State) : State :=
  eachHears hearBeat (broadcastHeard s) (broadcastBeat .beat (startFrame start (reachTime start s)))

/-- Slot 0 with RELEASE ALL, after which the mark is clear (R116). -/
def sendReleaseAll (start : Nat) (s : State) : State :=
  let s1 := broadcastBeat .releaseAll (startFrame start (reachTime start s))
  eachHears hearRelease (broadcastHeard s) { s1 with bus := { s1.bus with releaseAll := false } }

/-- The controller may start a frame: SOLO or DUTY, no transaction in flight, no ISOLATE waiting (R136, R141, R142). -/
def mayStartFrame (s : State) : Bool :=
  (s.pair.state == .solo || s.pair.state == .duty) && !s.pair.isolating && s.bus.inFlight.isNone

/-- Slot k may start with the kind given: the pair unit permits driving, no ISOLATE waits for the end of the slot in
progress, no transaction is in flight, and the plan gives slot k that kind (R99, R102, R142, log 4). -/
def slotReady (k : SlotId) (kind : SlotKind) (s : State) : Bool :=
  mayDrive s && !s.pair.isolating && s.bus.inFlight.isNone && s.bus.frame.isSome
    && (match s.bus.plan with
      | some plan => look plan k == kind
      | none => false)

/-- Slot k starts, 2 × k ms after the start of its frame, with nothing sent yet (R100). -/
def startSlot (k : SlotId) (s : State) : State :=
  match s.bus.frame with
  | some f =>
    let s1 := reachTime (f.start + Config.slotTime * k.val) s
    { s1 with bus := { s1.bus with frame := some { f with slot := k }, line := none } }
  | none => s

/-- A command is sent in slot k: it is driven onto the line and is in flight (R99, R101). -/
def sendCommand (k : SlotId) (kind : SlotKind) (address : Byte) (h : Option HeadId) (c : BusCommand) (s : State) : State :=
  eachHead (hearCommand address c)
    { s with
      bus :=
        { s.bus with
          inFlight := some { slot := k, kind := kind, address := address, head := h, command := c }
          line := some (commandFrame address c).bytes } }

/-! ## What a slot carries (R105 to R108) -/

/-- The command of a POLL slot (Table 6.4); none where its head is ABSENT or FAILED (R103). -/
def pollCommand (s : State) (h : HeadId) : Option BusCommand :=
  match (headOf s h).state with
  | .absent => none
  | .failed => none
  | .joining => some (.assign (placementOf s h).serial)
  | .loading => some (nextScript s h)
  | .recovering =>
    some
      (.resync (placementOf s h).serial (headAddress h) s.selector.generation ((desiredOf s h).getD (displayFor s h)))
  | .serving =>
    match entryOf s.queue h with
    | some e => if e.held then some .poll else some (.display e.display)
    | none => if (headOf s h).testPending then some .test else some .poll

/-- Slot 1 (R105). -/
def enrolSlot (s : State) : State :=
  if slotReady 1 .enrol s then
    sendCommand 1 .enrol Config.broadcastAddress none (.invite s.bus.contention) (startSlot 1 s)
  else s

/-- The partner query of slot 2 (R106). -/
def partnerQuery (s : State) : BusCommand := .query s.engine.digest (modeCode s.mode) s.bus.beat

/-- Slot 2 with PAIR_EN set (R106). -/
def partnerSlot (s : State) : State :=
  if slotReady 2 .partner s then
    sendCommand 2 .partner Config.partnerAddress none (partnerQuery s) (startSlot 2 s)
  else s

/-- An UPDATE slot (R107): DISPLAY for the first eligible entry, or nothing. -/
def updateSlot (k : SlotId) (s : State) : State :=
  if slotReady k .update s then
    match eligibleEntry s with
    | some e => sendCommand k .update (headAddress e.head) (some e.head) (.display e.display) (startSlot k s)
    | none => startSlot k s
  else s

/-- The head of the plan's POLL slot k. -/
def plannedHead (k : SlotId) (s : State) : Option HeadId :=
  match s.bus.plan with
  | some plan => match look plan k with | .poll h => some h | _ => none
  | none => none

/-- A POLL slot (R103, R108). -/
def pollSlot (k : SlotId) (s : State) : State :=
  match plannedHead k s with
  | some h =>
    if slotReady k (.poll h) s then
      match pollCommand s h with
      | some c => sendCommand k (.poll h) (headAddress h) (some h) c (startSlot k s)
      | none => startSlot k s
    else s
  | none => s

/-! ## Completion (R105, R106, R113) -/

/-- The end of an INVITE's window: a valid announcement goes to the head manager, and the contention flag follows the
class (R105). -/
def enrolOutcome (w : WindowClass) (s : State) : State :=
  let s1 := { s with bus := { s.bus with contention := w == .garbled } }
  match w with
  | .valid (.announcement serial a) => announce serial a (headAnnounced serial s1)
  | _ => s1

/-- The outcome of a transaction goes to its owner (R113). -/
def handOutcome (t : Transaction) (w : WindowClass) (s : State) : State :=
  match t.command, t.head with
  | .beat _ _, _ => s
  | .releaseAll _ _, _ => s
  | .invite _, _ => enrolOutcome w s
  | .query _ _ _, _ => partnerOutcome w s
  | c, some h => ownOutcome h c w (headsActed t.address c w s)
  | _, none => s

/-- The reply window of the transaction in flight ends (R100, R113); nothing happens where none is in flight (log 5). -/
def completeTransaction (window : Window) (s : State) : State :=
  match s.bus.inFlight with
  | some t => handOutcome t (classify t.address t.command window) { s with bus := { s.bus with inFlight := none } }
  | none => s

/-! ## RESTART BUS (R115) -/

/-- RESTART BUS at the sign bus side: heads, queue and lists emptied, next beat 0, mark and flag set (R115). -/
def clearBus (s : State) : State :=
  let s1 := releaseHeads s
  { s1 with bus := { s1.bus with nextBeat := 0, releaseAll := true, contention := true } }

/-- RESTART BUS (R115). -/
def restartBus (s : State) : Served :=
  if (s.mode = .setup ∨ s.mode = .guard) ∧ (s.pair.state = .solo ∨ s.pair.state = .duty) then taken .done (clearBus s)
  else refuse .wrongMode s

/-! ## Commands -/

/-- BEAT: slot 0 of a frame whose release-all mark is clear (R104); nothing otherwise (log 5). -/
def execBeat (s : State) : Host.Outcome State Fault Refusal :=
  .next (if mayStartFrame s && !s.bus.releaseAll then sendBeat (nextStart s) s else s)

/-- RELEASE_ALL: slot 0 of a frame whose release-all mark is set (R116); nothing otherwise (log 5). -/
def execReleaseAll (s : State) : Host.Outcome State Fault Refusal :=
  .next (if mayStartFrame s && s.bus.releaseAll then sendReleaseAll (nextStart s) s else s)

/-- ENROL (R105). -/
def execEnrol (s : State) : Host.Outcome State Fault Refusal := .next (enrolSlot s)

/-- PARTNER_SLOT (R106). -/
def execPartnerSlot (s : State) : Host.Outcome State Fault Refusal := .next (partnerSlot s)

/-- UPDATE_SLOT (R107). -/
def execUpdateSlot (k : SlotId) (s : State) : Host.Outcome State Fault Refusal := .next (updateSlot k s)

/-- POLL_SLOT (R103, R108). -/
def execPollSlot (k : SlotId) (s : State) : Host.Outcome State Fault Refusal := .next (pollSlot k s)

/-- TRANSACTION_COMPLETE (R113). -/
def execTransactionComplete (window : Window) (s : State) : Host.Outcome State Fault Refusal :=
  .next (completeTransaction window s)

/-- RESTART_BUS (R115). -/
def execRestartBus (tag : Byte) (s : State) : Host.Outcome State Fault Refusal :=
  .next (takeRequest (requestFrame (.restartBus tag)) restartBus s)

end Sys2Proof.Machine
end

