-- ==== Sys2Proof/Machine/Pair.lean ====
section
/-! DEFINITION. The pair unit's commands (section 8): claiming and takeover, YIELD and ISOLATE, and what an observing
controller takes from the bus. -/

namespace Sys2Proof.Machine

/-! ## Claiming (R138 to R140) -/

/-- The silence timer finds the partner HOLD released: CLAIMING with guard 1 (R138). -/
def startClaim (s : State) : State :=
  { s with
    pair :=
      { s.pair with
        state := .claiming, hold := true, silence := none, stuck := false, afterYield := false
        guard := some { expiry := s.now + Config.guardTime, second := false } } }

/-- The silence timer finds the partner HOLD asserted: it restarts, and the first such expiry is reported (R138). -/
def partnerStuck (s : State) : State :=
  let s1 := startPairSilence s
  if s.pair.stuck then s1 else offerPair .partnerStuck s.pair.state { s1 with pair := { s1.pair with stuck := true } }

/-- The silence timer expires in RESERVE (R138); nothing happens where it does not run (log 3). -/
def silenceEnds (partnerHold : Bool) (s : State) : State :=
  match s.pair.state, s.pair.silence with
  | .reserve, some t =>
    let s1 := reachTime t s
    if partnerHold then partnerStuck s1 else startClaim s1
  | _, _ => s

/-- Entry into DUTY, with the frame that starts at once (R140). Its plan is built from the records as they stand now, not
taken from the last observed BEAT: the model's reading, log 40. -/
def enterDuty (s : State) : State :=
  let s1 := { s with pair := { s.pair with state := .duty, hold := true, guard := none, lost := 0, mismatch := 0 } }
  let s2 := offerPair .takeover s.pair.state s1
  sendBeat s2.now s2

/-- The claim guard expires in CLAIMING (R139); nothing happens where it does not run (log 3). -/
def guardEnds (partnerHold : Bool) (s : State) : State :=
  match s.pair.state, s.pair.guard with
  | .claiming, some g =>
    let s1 := reachTime g.expiry s
    if !partnerHold then enterDuty s1
    else if g.second then giveUpClaim .conflict s1
    else
      match s1.pair.role with
      | .b => giveUpClaim .claimWithdrawn s1
      | .a => { s1 with pair := { s1.pair with guard := some { expiry := s1.now + Config.guardTime, second := true } } }
  | _, _ => s

/-! ## YIELD and ISOLATE (R141, R142) -/

/-- YIELD (R141). -/
def yieldBus (s : State) : Served :=
  match s.pair.state with
  | .duty => taken .done { s with pair := { s.pair with state := .yielding } }
  | .solo => refuse .notPaired s
  | .reserve => refuse .wrongMode s
  | .claiming => refuse .wrongMode s
  | .yielding => refuse .wrongMode s
  | .isolated => refuse .wrongMode s

/-- The end of slot 99 in YIELDING (R141). -/
def endYield (s : State) : State :=
  offerPair .yielded s.pair.state
    (startPairSilence
      (stopDriving { s with pair := { s.pair with state := .reserve, hold := false, afterYield := true } }))

/-- The end of the present frame, where there is one (R100, R141). -/
def frameEnd (s : State) : Nat :=
  match s.bus.frame with
  | some f => f.start + Config.frameTime
  | none => s.now

/-- Entry into ISOLATED (R142). -/
def enterIsolated (s : State) : State :=
  offerPair .isolated s.pair.state
    (stopDriving
      { s with pair := { s.pair with state := .isolated, hold := false, silence := none, guard := none, isolating := false } })

/-- ISOLATE (R142); a controller that drives the bus finishes the slot in progress first. -/
def isolateUnit (s : State) : Served :=
  match s.pair.state with
  | .solo => refuse .notPaired s
  | .isolated => taken .done s
  | .reserve => taken .done (enterIsolated s)
  | .claiming => taken .done (enterIsolated s)
  | .duty => taken .done { s with pair := { s.pair with isolating := true } }
  | .yielding => taken .done { s with pair := { s.pair with isolating := true } }

/-! ## Observing (R137, R143 to R147) -/

/-- A frame on the bus is a partner frame: a command frame with a correct CRC (R137). -/
def isPartnerFrame (f : BusFrame) : Bool := isCommandKind f.kind && crcOk f

/-- The frame timing, plan and beat that an observed BEAT or RELEASE ALL gives (R143). -/
def alignFrame (beat : Byte) (s : State) : State :=
  let s1 := startFrame s.now s
  { s1 with bus := { s1.bus with beat := beat, nextBeat := beat + 1 } }

/-- The broadcast frames an observing controller takes (R143). -/
def takeBroadcast (c : BusCommand) (window : Window) (s : State) : State :=
  match c with
  | .beat b m => eachHears hearBeat ⟨b, m == 1⟩ (alignFrame b s)
  | .releaseAll b m => eachHears hearRelease ⟨b, m == 1⟩ (releaseHeads (alignFrame b s))
  | .invite x => enrolOutcome (classify Config.broadcastAddress (.invite x) window) s
  | _ => s

/-- A broadcast frame is observed, with its window for an INVITE (R137, R143). -/
def observeBroadcast (f : BusFrame) (window : Window) (s : State) : State :=
  if observes s && isPartnerFrame f then
    match commandOf f with
    | some c => if f.address = Config.broadcastAddress then takeBroadcast c window (observePartner s) else observePartner s
    | none => observePartner s
  else s

/-- The serial that an observed command carries is the placement's, or it carries none (R144). -/
def serialMatches (s : State) (h : HeadId) : BusCommand → Bool
  | .assign serial => serial == (placementOf s h).serial
  | .resync serial _ _ _ => serial == (placementOf s h).serial
  | _ => true

/-- An addressed transaction at an observing controller: disregarded without frame timing, for an undefined placement or
another serial; else taken by Table 8.4 (R143, R144). A controller that has driven the bus itself has frame timing from its
own frames before it observes a BEAT: the model's choice, log 42. -/
def takeObserved (address : Byte) (c : BusCommand) (window : Window) (s : State) : State :=
  let w := classify address c window
  let s1 := headsActed address c w (eachHead (hearCommand address c) s)
  match headOfAddress address with
  | some h =>
    if s.bus.frame.isSome ∧ (placementOf s h).defined ∧ serialMatches s h c then observedOutcome h c w s1 else s1
  | none => s1

/-- An addressed transaction is observed (R137, R144, R145). -/
def observeTransaction (f : BusFrame) (window : Window) (s : State) : State :=
  if observes s && isPartnerFrame f then
    match commandOf f with
    | some c => takeObserved f.address c window (observePartner s)
    | none => observePartner s
  else s

/-- The partner reply of a controller, sent on its HOLD output (R146). -/
def partnerReply (s : State) : BusFrame :=
  sealFrame Config.partnerAddress 0x84 (halfBytes s.engine.digest ++ [modeCode s.mode, pairStateCode s.pair.state])

/-- A partner query in RESERVE or ISOLATED: the partner report, the beat, the mismatch count, and the reply (R146,
R147). -/
def takeQuery (digest : Half) (mode beat : Byte) (s : State) : State :=
  compareDigests digest
    { s with
      pair :=
        { s.pair with
          report := some { digest := digest, mode := mode, state := pairStateCode .duty }
          holdReply := some (partnerReply s).bytes }
      bus := { s.bus with beat := beat, nextBeat := beat + 1 } }

/-- A partner query is observed (R137, R146). One that ends a claim is taken in RESERVE, with the reply that RESERVE sends:
the model's reading, log 39. -/
def observeQuery (f : BusFrame) (s : State) : State :=
  if observes s && isPartnerFrame f then
    let s1 := observePartner s
    match commandOf f with
    | some (.query d m b) => if f.address = Config.partnerAddress then takeQuery d m b s1 else s1
    | _ => s1
  else s

/-! ## Commands -/

/-- YIELD (R141). -/
def execYield (tag : Byte) (s : State) : Host.Outcome State Fault Refusal :=
  .next (takeRequest (requestFrame (.yield tag)) yieldBus s)

/-- ISOLATE (R142). -/
def execIsolate (tag : Byte) (s : State) : Host.Outcome State Fault Refusal :=
  .next (takeRequest (requestFrame (.isolate tag)) isolateUnit s)

/-- YIELDING_END (R141): an ISOLATE that waits takes the controller out at the same moment instead (R142, log 10). -/
def execYieldingEnd (s : State) : Host.Outcome State Fault Refusal :=
  .next
    (if s.pair.state = .yielding ∧ !s.pair.isolating ∧ s.bus.inFlight.isNone then endYield (reachTime (frameEnd s) s)
    else s)

/-- ISOLATE_SLOT_END (R142). -/
def execIsolateSlotEnd (s : State) : Host.Outcome State Fault Refusal :=
  .next (if s.pair.isolating ∧ s.bus.inFlight.isNone then enterIsolated s else s)

/-- PAIR_SILENCE_EXPIRY (R138). -/
def execPairSilenceExpiry (partnerHold : Bool) (s : State) : Host.Outcome State Fault Refusal :=
  .next (silenceEnds partnerHold s)

/-- CLAIM_GUARD_EXPIRY (R139, R140). -/
def execClaimGuardExpiry (partnerHold : Bool) (s : State) : Host.Outcome State Fault Refusal :=
  .next (guardEnds partnerHold s)

/-- OBSERVED_BROADCAST (R143). -/
def execObservedBroadcast (f : BusFrame) (window : Window) (s : State) : Host.Outcome State Fault Refusal :=
  .next (observeBroadcast f window s)

/-- OBSERVED_TRANSACTION (R144). -/
def execObservedTransaction (f : BusFrame) (window : Window) (s : State) : Host.Outcome State Fault Refusal :=
  .next (observeTransaction f window s)

/-- PARTNER_QUERY_OBSERVED (R146, R147). -/
def execPartnerQueryObserved (f : BusFrame) (s : State) : Host.Outcome State Fault Refusal := .next (observeQuery f s)

/-- PARTNER_QUERY_MISSED: a slot 2 without a valid query at an observing controller (R147). -/
def execPartnerQueryMissed (s : State) : Host.Outcome State Fault Refusal :=
  .next (if observes s then missedExchange (countSlot s) else s)

end Sys2Proof.Machine
end

