-- ==== Sys2Proof/Machine/Queries.lean ====
section
/-! DEFINITION. The queries (R13, R133, R166) with their data as Table 11.4 lays it out, and the requests on the notice
filter and the loss mark (R168). -/

namespace Sys2Proof.Machine

/-! ## GET STATUS (R166) -/

/-- The last validation result as sent, with its failure record (Table 11.4). -/
def validationBytes (v : Validation) : List Byte :=
  match v with
  | .none => 0 :: failureBytes none
  | .running => 1 :: failureBytes none
  | .passed => 2 :: failureBytes none
  | .failed f => 3 :: failureBytes (some f)
  | .cancelled => 4 :: failureBytes none

/-- The straps as sent: LINK_SPEED in bits 0 and 1, PAIR_EN in bit 2, PAIR_ROLE in bit 3 with B set (Table 11.4).
Bits 4 to 7, which the table gives no value, are sent as 0: the model's choice, log 47. -/
def strapByte (s : State) : Byte :=
  natByte (s.link.speed.toNat + (if s.pair.enabled then 4 else 0) + (if s.pair.role = .b then 8 else 0))

/-- The eight timing settings in the order of Table 9.1 (Table 11.4). -/
def timingBytes (t : Timing) : List Byte := (List.range 8).flatMap fun c => natHalf (timingValue t c)

/-- The data of GET STATUS: 41 bytes (R166, Table 11.4). The notice loss mark, which R166 lists too, has no byte among them
and goes out in the link flags of the reply's status summary: the model's reading, log 41. -/
def statusBytes (s : State) : List Byte :=
  [flagCode s.map.validated] ++ validationBytes s.map.lastValidation ++ halfBytes s.engine.digest
    ++ [runStateCode s.engine.run, natByte s.engine.abandonCount, flagCode s.engine.pendingFlag,
      natByte (urgentCount s.queue), natByte (ordinaryCount s.queue), s.selector.generation, s.bus.beat,
      natByte (pollCount s.bus.plan), strapByte s]
    ++ reportBytes s.pair.report
    ++ [natByte s.pair.mismatch, natByte s.pair.lost, natByte s.link.notices.length, s.link.filter]
    ++ timingBytes s.timing

/-- GET STATUS (R166). -/
def getStatus (s : State) : Served := answer (statusBytes s) s

/-! ## GET POINT (R13, R48) -/

/-- A route record as sent (Table 11.4): a field that the status shows absent is 0 (log 14). -/
def routeBytes (r : Route) : List Byte :=
  [routeStatusCode r.status]
    ++ (match r.best with
      | some b => natWord b.smoke ++ natWord b.walk
      | none => [0, 0, 0, 0, 0, 0, 0, 0])
    ++ (match r.next with
      | some x => natHalf x.val
      | none => [0, 0])
    ++ [match r.target with | some e => natByte e.val | none => 0]

/-- The data of GET POINT: 15 bytes (Table 11.4). -/
def pointBytes (s : State) (p : PointId) : List Byte :=
  [flagCode (look s.map.points p).defined, pointKindCode (look s.map.points p).kind,
    optionalIndexCode (look s.map.points p).zone]
    ++ routeBytes (routeOf s p)

/-- GET POINT (R13). -/
def getPoint (index : Byte) (s : State) : Served :=
  match indexOf 240 index.toNat with
  | some p => answer (pointBytes s p) s
  | none => refuse .badIndex s

/-! ## GET ZONE (R13, R22) -/

/-- A zone timer as sent: the time to expiry in units of 100 ms, rounded up, or 0xFFFF where it is stopped (Table 11.4). -/
def timerBytes (now : Nat) : Option Nat → List Byte
  | some t => natHalf ((t - now + 99) / 100)
  | none => [0xFF, 0xFF]

/-- The data of GET ZONE: 13 bytes (Table 11.4). -/
def zoneBytes (s : State) (z : ZoneId) : List Byte :=
  [flagCode (look s.map.zones z).defined, natByte (look s.map.zones z).suspect, natByte (look s.map.zones z).smoke,
    flagCode (look s.map.zones z).supervised, zoneStateCode (zoneOf s z).state]
    ++ readingBytes (zoneOf s z).lastReading
    ++ timerBytes s.now (zoneOf s z).confirm ++ timerBytes s.now (zoneOf s z).clearHold
    ++ timerBytes s.now (zoneOf s z).silence

/-- GET ZONE (R13). -/
def getZone (index : Byte) (s : State) : Served :=
  match indexOf 64 index.toNat with
  | some z => answer (zoneBytes s z) s
  | none => refuse .badIndex s

/-! ## GET EXIT (R13, R39) -/

/-- A contact position as sent: row and column, each 0xFF where it is absent (Table 11.4). -/
def positionBytes : Option Position → List Byte
  | some p => [natByte p.row.val, natByte p.column.val]
  | none => [0xFF, 0xFF]

/-- The data of GET EXIT: 11 bytes (Table 11.4). -/
def exitBytes (s : State) (e : ExitId) : List Byte :=
  [flagCode (look s.map.exits e).defined, natByte (look s.map.exits e).point.val]
    ++ natHalf (look s.map.exits e).baseBias ++ positionBytes (look s.map.exits e).contact
    ++ [overrideCode (exitOf s e).override] ++ natHalf (exitOf s e).bias
    ++ [contactCode (exitOf s e).contact, flagCode (exitOf s e).available]

/-- GET EXIT (R13). -/
def getExit (index : Byte) (s : State) : Served :=
  match indexOf 24 index.toNat with
  | some e => answer (exitBytes s e) s
  | none => refuse .badIndex s

/-! ## GET HEAD (R133, R98) -/

/-- A display that may be absent, which its flag then shows: 0 in every byte (Table 11.4). -/
def optionalDisplayBytes : Option Display → List Byte
  | some d => displayBytes d
  | none => [0, 0, 0, 0]

/-- Abilities as sent: 0 in every byte where they are absent (Table 11.4). -/
def abilityBytes : Option Abilities → List Byte
  | some a => [a.level, a.arrows, a.capacity]
  | none => [0, 0, 0]

/-- Flags as a byte, the first in bit 0. -/
def packFlags (l : List Bool) : Nat := l.foldr (fun b n => (if b then 1 else 0) + 2 * n) 0

/-- The head flags of GET HEAD (Table 11.4). -/
def headFlags (s : State) (h : HeadId) : Byte :=
  let r := headOf s h
  let e := entryOf s.queue h
  natByte
    (packFlags
      [r.generation.isNone, r.announced, r.testPending, e.isSome, e.any fun x => x.held, e.any fun x => x.urgent,
        r.confirmed.isSome, (desiredOf s h).isSome])

/-- The data of GET HEAD: 30 bytes (Table 11.4). -/
def headBytes (s : State) (h : HeadId) : List Byte :=
  let pl := placementOf s h
  let r := headOf s h
  [flagCode pl.defined] ++ serialBytes pl.serial ++ [natByte pl.point.val, natByte pl.facing.val, flagCode pl.enabled]
    ++ [headStateCode r.state] ++ abilityBytes r.abilities ++ maskBytes r.generation.isNone r.faultMask
    ++ [headFlags s h, r.generation.getD 0, natByte r.loaded.length, natByte r.waitCount] ++ natHalf r.faultCount
    ++ [rejectCode r.lastReject] ++ optionalDisplayBytes r.confirmed ++ optionalDisplayBytes (desiredOf s h)
    ++ [natByte (queuePosition s.queue h)]

/-- GET HEAD (R133). -/
def getHead (index : Byte) (s : State) : Served :=
  match indexOf 64 index.toNat with
  | some h => answer (headBytes s h) s
  | none => refuse .badIndex s

/-! ## GET STRANGERS (R133) -/

/-- The data of GET STRANGERS: 6 + 7n bytes (Table 11.4). -/
def strangerBytes (m : HeadManager) : List Byte :=
  [natByte m.strangers.length]
    ++ (m.strangers.flatMap fun x => serialBytes x.serial ++ abilityBytes (some x.abilities))
    ++ [flagCode m.lastFaulty.isSome] ++ serialBytes (m.lastFaulty.getD 0)

/-- GET STRANGERS (R133). -/
def getStrangers (s : State) : Served := answer (strangerBytes s.heads) s

/-! ## SET NOTICE FILTER and CLEAR NOTICE LOSS (R168) -/

/-- SET NOTICE FILTER: bit k of the second byte masks kind k, and a bit of the first byte refuses it (R168, R172). -/
def setNoticeFilter (mask : Half) (s : State) : Served :=
  if hiByte mask = 0 then taken .done { s with link := { s.link with filter := loByte mask } } else refuse .badValue s

/-- CLEAR NOTICE LOSS (R168). -/
def clearNoticeLoss (s : State) : Served := taken .done { s with link := { s.link with lossMark := false } }

/-! ## Commands -/

/-- GET_STATUS (R166). -/
def execGetStatus (tag : Byte) (s : State) : Host.Outcome State Fault Refusal :=
  .next (takeRequest (requestFrame (.getStatus tag)) getStatus s)

/-- GET_POINT (R13). -/
def execGetPoint (tag index : Byte) (s : State) : Host.Outcome State Fault Refusal :=
  .next (takeRequest (requestFrame (.getPoint tag index)) (getPoint index) s)

/-- GET_ZONE (R13). -/
def execGetZone (tag index : Byte) (s : State) : Host.Outcome State Fault Refusal :=
  .next (takeRequest (requestFrame (.getZone tag index)) (getZone index) s)

/-- GET_EXIT (R13). -/
def execGetExit (tag index : Byte) (s : State) : Host.Outcome State Fault Refusal :=
  .next (takeRequest (requestFrame (.getExit tag index)) (getExit index) s)

/-- GET_HEAD (R133). -/
def execGetHead (tag index : Byte) (s : State) : Host.Outcome State Fault Refusal :=
  .next (takeRequest (requestFrame (.getHead tag index)) (getHead index) s)

/-- GET_STRANGERS (R133). -/
def execGetStrangers (tag : Byte) (s : State) : Host.Outcome State Fault Refusal :=
  .next (takeRequest (requestFrame (.getStrangers tag)) getStrangers s)

/-- SET_NOTICE_FILTER (R168). -/
def execSetNoticeFilter (tag : Byte) (mask : Half) (s : State) : Host.Outcome State Fault Refusal :=
  .next (takeRequest (requestFrame (.setNoticeFilter tag mask)) (setNoticeFilter mask) s)

/-- CLEAR_NOTICE_LOSS (R168). -/
def execClearNoticeLoss (tag : Byte) (s : State) : Host.Outcome State Fault Refusal :=
  .next (takeRequest (requestFrame (.clearNoticeLoss tag)) clearNoticeLoss s)

end Sys2Proof.Machine
end

