-- ==== Sys2Proof/Machine/Receiver.lean ====
section
/-! DEFINITION. The panel link's receiver, the service of buffered requests, and the end of a frame on the line (section
10). -/

namespace Sys2Proof.Machine

/-! ## Service (R163, R164) -/

/-- What the owning block does with a request (Table 10.3); a command that is no request has no type of Table 11.2. -/
def requestAct : Instr → State → Served
  | .clearMap _ => clearMap
  | .setPoint _ action index kind zone => setPoint action index kind zone
  | .setAisle _ action index endA endB length width bearing passage zone =>
    setAisle action index endA endB length width bearing passage zone
  | .setExit _ action index point bias row column => setExit action index point bias row column
  | .setZone _ action index suspect smoke sup => setZone action index suspect smoke sup
  | .placeHead _ index serial point facing enabled => placeHead index serial point facing enabled
  | .unplaceHead _ index => unplaceHead index
  | .setScript _ action script body => setScript action script body
  | .setKindMap _ entry script => setKindMap entry script
  | .setTiming _ setting value => setTiming setting value
  | .arm _ => arm
  | .disarm _ => disarm
  | .alarm _ => alarm
  | .standDown _ => standDown
  | .zoneReadings _ entries => zoneReadings entries
  | .confirmZone _ zone => confirmZone zone
  | .blockAisle _ index => blockAisle index
  | .openAisle _ index => openAisle index
  | .exitOverride _ index value => exitOverride index value
  | .exitBias _ index value => exitBias index value
  | .getStatus _ => getStatus
  | .getPoint _ index => getPoint index
  | .getHead _ index => getHead index
  | .getZone _ index => getZone index
  | .getExit _ index => getExit index
  | .getStrangers _ => getStrangers
  | .testHead _ index => testHead index
  | .restoreHead _ index => restoreHead index
  | .restart _ => restart
  | .restartBus _ => restartBus
  | .yield _ => yieldBus
  | .isolate _ => isolateUnit
  | .setNoticeFilter _ mask => setNoticeFilter mask
  | .clearNoticeLoss _ => clearNoticeLoss
  | _ => refuse .unknownType

/-- The checks of R164 in their order: the type, the length, then the owning block. -/
def frameAct (r : PanelFrame) : State → Served :=
  match decodeRequest r with
  | .ok i => requestAct i
  | .error code => refuse code

/-- A complete request is offered to the receive buffer (R163). -/
def offerRequest (r : PanelFrame) (s : State) : State := takeRequest r (frameAct r) s

/-- The first waiting request is served when the reply slot is empty (R163). -/
def serveWaiting (s : State) : State :=
  match s.link.reply, s.link.buffer with
  | none, r :: rest => serveWith r (frameAct r) { s with link := { s.link with buffer := rest } }
  | _, _ => s

/-! ## Receiver (R161, R162) -/

/-- The receiver takes up a new state. -/
def setReceiver (hunt : Hunt) (gathered : List Byte) (escape : Bool) (s : State) : State :=
  { s with link := { s.link with hunt := hunt, gathered := gathered, escape := escape } }

/-- A frame formed under R161 is judged (R162). -/
def judgeFrame (bytes : List Byte) (s : State) : State :=
  if bytes.isEmpty then s
  else
    match PanelFrame.ofUnstuffed bytes with
    | some r => offerRequest r s
    | none => discardFrame s

/-- A byte is gathered; one over the limit discards the frame (R161). -/
def gatherByte (b : Byte) (s : State) : State :=
  let bytes := s.link.gathered ++ [b]
  if Config.gatherLimit < bytes.length then discardFrame (setReceiver .hunting [] false s)
  else setReceiver .gathering bytes false s

/-- A byte without a framing error in GATHERING (R161). -/
def gatherStep (b : Byte) (s : State) : State :=
  if b = Config.flagByte then
    if s.link.escape then discardFrame (setReceiver .gathering [] false s)
    else judgeFrame s.link.gathered (setReceiver .gathering [] false s)
  else if s.link.escape then gatherByte (b ^^^ Config.escapeXor) s
  else if b = Config.escapeByte then setReceiver .gathering s.link.gathered true s
  else gatherByte b s

/-- One received byte (R161). -/
def receiveByte (b : Byte) (framingError : Bool) (s : State) : State :=
  match s.link.hunt with
  | .hunting => if b = Config.flagByte ∧ !framingError then setReceiver .gathering [] false s else s
  | .gathering => if framingError then discardFrame (setReceiver .hunting [] false s) else gatherStep b s

/-! ## Transmitter (R163, R169) -/

/-- The frame on the line ends: the transmitter chooses the next one, and a request that waited for the reply slot is
served (R163, R169); nothing happens where no frame is on the line (log 5). -/
def endTransmit (s : State) : State :=
  match s.link.sending with
  | some _ => serveWaiting { s with link := beginNext { s.link with sending := none } }
  | none => s

/-! ## Commands -/

/-- PANEL_BYTE_RECEIVED (R161 to R163). -/
def execPanelByteReceived (b : Byte) (framingError : Bool) (s : State) : Host.Outcome State Fault Refusal :=
  .next (receiveByte b framingError s)

/-- TRANSMIT_FRAME_END (R169). -/
def execTransmitFrameEnd (s : State) : Host.Outcome State Fault Refusal := .next (endTransmit s)

/-- UNKNOWN_TYPE: a request whose type Table 11.2 does not list (R164). A type that it does list is served as that
request. -/
def execUnknownType (type tag : Byte) (payload : List Byte) (s : State) : Host.Outcome State Fault Refusal :=
  .next (offerRequest { type := type, tag := tag, payload := payload } s)

end Sys2Proof.Machine
end

