-- ==== Sys2Proof/Machine/Dispatch.lean ====
section
/-! DEFINITION. The dispatch of commands: one arm for each constructor of `Instr`, each one direct call of its meaning. -/

namespace Sys2Proof.Machine

def exec (i : Instr) (s : State) : Host.Outcome State Fault Refusal :=
  match i with
  -- resets and operating modes
  | .hardReset speed pairEn role => Sys2Proof.Machine.execHardReset speed pairEn role s
  | .restart tag => Sys2Proof.Machine.execRestart tag s
  | .arm tag => Sys2Proof.Machine.execArm tag s
  | .disarm tag => Sys2Proof.Machine.execDisarm tag s
  | .alarm tag => Sys2Proof.Machine.execAlarm tag s
  | .standDown tag => Sys2Proof.Machine.execStandDown tag s
  | .setTiming tag setting value => Sys2Proof.Machine.execSetTiming tag setting value s
  | .validationComplete => Sys2Proof.Machine.execValidationComplete s
  | .autoAlarmRequest => Sys2Proof.Machine.execAutoAlarmRequest s
  -- hall map and display selector
  | .clearMap tag => Sys2Proof.Machine.execClearMap tag s
  | .setPoint tag action index kind zone => Sys2Proof.Machine.execSetPoint tag action index kind zone s
  | .setAisle tag action index endA endB length width bearing passage zone => Sys2Proof.Machine.execSetAisle tag action index endA endB length width bearing passage zone s
  | .setExit tag action index point bias row column => Sys2Proof.Machine.execSetExit tag action index point bias row column s
  | .setZone tag action index suspect smoke supervised => Sys2Proof.Machine.execSetZone tag action index suspect smoke supervised s
  | .placeHead tag index serial point facing enabled => Sys2Proof.Machine.execPlaceHead tag index serial point facing enabled s
  | .unplaceHead tag index => Sys2Proof.Machine.execUnplaceHead tag index s
  | .setScript tag action script body => Sys2Proof.Machine.execSetScript tag action script body s
  | .setKindMap tag entry script => Sys2Proof.Machine.execSetKindMap tag entry script s
  | .blockAisle tag index => Sys2Proof.Machine.execBlockAisle tag index s
  | .openAisle tag index => Sys2Proof.Machine.execOpenAisle tag index s
  -- smoke zones and exits
  | .zoneReadings tag entries => Sys2Proof.Machine.execZoneReadings tag entries s
  | .confirmZone tag zone => Sys2Proof.Machine.execConfirmZone tag zone s
  | .confirmTimerExpiry zone => Sys2Proof.Machine.execConfirmTimerExpiry zone s
  | .clearHoldExpiry zone => Sys2Proof.Machine.execClearHoldExpiry zone s
  | .zoneSilenceExpiry zone => Sys2Proof.Machine.execZoneSilenceExpiry zone s
  | .gateScan levels => Sys2Proof.Machine.execGateScan levels s
  | .exitOverride tag index value => Sys2Proof.Machine.execExitOverride tag index value s
  | .exitBias tag index value => Sys2Proof.Machine.execExitBias tag index value s
  -- route engine
  | .sweepEnd => Sys2Proof.Machine.execSweepEnd s
  | .selectionEnd => Sys2Proof.Machine.execSelectionEnd s
  | .publication => Sys2Proof.Machine.execPublication s
  -- sign bus
  | .beat => Sys2Proof.Machine.execBeat s
  | .releaseAll => Sys2Proof.Machine.execReleaseAll s
  | .enrol => Sys2Proof.Machine.execEnrol s
  | .partnerSlot => Sys2Proof.Machine.execPartnerSlot s
  | .updateSlot slot => Sys2Proof.Machine.execUpdateSlot slot s
  | .pollSlot slot => Sys2Proof.Machine.execPollSlot slot s
  | .transactionComplete window => Sys2Proof.Machine.execTransactionComplete window s
  | .restartBus tag => Sys2Proof.Machine.execRestartBus tag s
  -- sign heads
  | .testHead tag index => Sys2Proof.Machine.execTestHead tag index s
  | .restoreHead tag index => Sys2Proof.Machine.execRestoreHead tag index s
  -- pair of controllers
  | .yield tag => Sys2Proof.Machine.execYield tag s
  | .isolate tag => Sys2Proof.Machine.execIsolate tag s
  | .yieldingEnd => Sys2Proof.Machine.execYieldingEnd s
  | .isolateSlotEnd => Sys2Proof.Machine.execIsolateSlotEnd s
  | .pairSilenceExpiry partnerHold => Sys2Proof.Machine.execPairSilenceExpiry partnerHold s
  | .claimGuardExpiry partnerHold => Sys2Proof.Machine.execClaimGuardExpiry partnerHold s
  | .observedBroadcast frame window => Sys2Proof.Machine.execObservedBroadcast frame window s
  | .observedTransaction frame window => Sys2Proof.Machine.execObservedTransaction frame window s
  | .partnerQueryObserved frame => Sys2Proof.Machine.execPartnerQueryObserved frame s
  | .partnerQueryMissed => Sys2Proof.Machine.execPartnerQueryMissed s
  -- queries
  | .getStatus tag => Sys2Proof.Machine.execGetStatus tag s
  | .getPoint tag index => Sys2Proof.Machine.execGetPoint tag index s
  | .getZone tag index => Sys2Proof.Machine.execGetZone tag index s
  | .getExit tag index => Sys2Proof.Machine.execGetExit tag index s
  | .getHead tag index => Sys2Proof.Machine.execGetHead tag index s
  | .getStrangers tag => Sys2Proof.Machine.execGetStrangers tag s
  -- panel link
  | .panelByteReceived byte framingError => Sys2Proof.Machine.execPanelByteReceived byte framingError s
  | .transmitFrameEnd => Sys2Proof.Machine.execTransmitFrameEnd s
  | .unknownType ty tag payload => Sys2Proof.Machine.execUnknownType ty tag payload s
  | .setNoticeFilter tag mask => Sys2Proof.Machine.execSetNoticeFilter tag mask s
  | .clearNoticeLoss tag => Sys2Proof.Machine.execClearNoticeLoss tag s

end Sys2Proof.Machine
end

