-- ==== Sys2Proof/Machine/Step.lean ====
section
/-! DEFINITION. One step of the part: the command at the front of its queue, or one tick of its clock. -/

namespace Sys2Proof.Machine

/-- The part's clock ticks by 1 ms while no command waits: DESIGN CHOICE, log 2. -/
def tick (s : State) : State := { s with now := s.now + 1 }

/-- One step: the command at the front of the queue is taken with the queue's rest; with none waiting the clock ticks. -/
def step (s : State) : Host.Outcome State Fault Refusal :=
  match s.pending with
  | [] => .next (tick s)
  | c :: rest => exec c { s with pending := rest }

/-- The part with the command that a word spells in front of its queue; no word spells one (log 31). -/
def State.withFetchWord (s : State) (nbits w : Nat) : State :=
  match decodeTableWord nbits w with
  | some i => { s with pending := i :: s.pending }
  | none => s

end Sys2Proof.Machine
end

