-- ==== Sys2Proof/Safety.lean ====
section
/-! DEFINITION. The terms claims are made in: the invariants of the part, one for each group of its state, what the
service of a request answers, and bytes fed to the receiver. -/

namespace Sys2Proof.Machine

/-! ## Invariants -/

/-- The panel link keeps its limits (R161, R163, R167), and at rest the transmitter leaves nothing to send behind and a
request waits only behind a reply (R163, R169). -/
structure LinkSound (s : State) : Prop where
  buffer : s.link.buffer.length ≤ Config.bufferCapacity
  notices : s.link.notices.length ≤ Config.noticeCapacity
  gathered : s.link.gathered.length ≤ Config.gatherLimit
  hunting : s.link.hunt = .hunting → s.link.gathered = [] ∧ s.link.escape = false
  idle : s.link.sending = none → s.link.reply = none ∧ s.link.notices = []
  waiting : s.link.reply = none → s.link.buffer = []
  serving : s.link.serving = false

/-- The states in which a head has a desired display (R71). -/
def displaying (st : HeadState) : Bool := st == .loading || st == .serving || st == .recovering

/-- A queue holds every URGENT entry before every ORDINARY one (R88). -/
def urgentFirst (q : List Entry) : Prop := q.Pairwise fun a b => b.urgent → a.urgent

/-- The desired displays follow the head states (R71) and are those that the inputs give as they stand (R80), and the
update queue keeps its three properties, its order, and in each entry the desired display (R88, R98). -/
structure DisplaySound (s : State) : Prop where
  desired : ∀ h, (desiredOf s h).isSome = displaying (headOf s h).state
  current : ∀ h d, desiredOf s h = some d → d = displayFor s h
  heads : (s.queue.map Entry.head).Nodup
  entries : ∀ e ∈ s.queue, desiredOf s e.head = some e.display ∧ (headOf s e.head).confirmed ≠ some e.display
  order : urgentFirst s.queue

/-- The route engine holds no run and the cleared table in SETUP and VALIDATING (R46, R70), the digest is that of the
table (R47), and a run has what its state takes (R45, R61, R67). -/
structure EngineSound (s : State) : Prop where
  digest : s.engine.digest = digestOf s.engine.table
  resting : routing s = false → s.engine.run = .idle ∧ s.engine.table = clearedTable s.map
  snapshot : s.engine.snapshot.isSome ↔ s.engine.run ≠ .idle
  newTable : s.engine.newTable.isSome ↔ s.engine.run = .publishing
  abandons : s.engine.abandonCount ≤ Config.firmCount
  firm : s.engine.firmMark = true → s.engine.abandonMark = false
  sweep : s.engine.sweep ≤ Config.sweepLimit

/-- A route from a point to an exit in a snapshot, with its cost: it ends at a point that holds the source pair of its
exit, and every step walks a usable aisle in a permitted direction (R49, R50, R52). -/
inductive Walk (map : MapStore) (sn : Snapshot) : PointId → Pair → Prop
  | start (p : PointId) (b : Pair) (h : look (initialPairs map sn) p = some b) : Walk map sn p b
  | step (p q : PointId) (x : AisleId) (b : Pair) (usable : (look sn.aisles x).usable = true)
      (along : walkTo (look map.aisles x) (look sn.aisles x).passage p = some q) (rest : Walk map sn q b) :
      Walk map sn p (b.add (aisleStep map sn x))

/-- A pair that an entry of the working pairs is no worse than (R51). -/
def noWorse (entry : Option Pair) (b : Pair) : Prop := ∃ a, entry = some a ∧ b.better a = false

/-- During a run the snapshot uses defined aisles and exits alone (R49), every working pair is the cost of a route in the
snapshot (R55) and no worse than the source pair its point started with (R52, R53), and no relaxation of a last sweep
changed anything (R54). -/
structure RunSound (s : State) : Prop where
  usable : ∀ sn x, s.engine.snapshot = some sn → (look sn.aisles x).usable = true → (look s.map.aisles x).defined = true
  exits : ∀ sn e b, s.engine.snapshot = some sn → look sn.sources e = some b → (look s.map.exits e).defined = true
  attained : ∀ sn p b, s.engine.snapshot = some sn → look s.engine.pairs p = some b → Walk s.map sn p b
  sources : ∀ sn p b, s.engine.snapshot = some sn → look (initialPairs s.map sn) p = some b →
    noWorse (look s.engine.pairs p) b
  settled : ∀ sn, s.engine.snapshot = some sn → s.engine.run = .selecting → s.engine.changeMark = false →
    (sweepTable s.map sn s.engine.pairs) = (s.engine.pairs, false)

/-- The pair unit keeps to Table 8.2 (R136), its counts to their limits (R147, R148), and only a controller that may
drive the bus has a release-all mark (R101). -/
structure PairSound (s : State) : Prop where
  solo : s.pair.state = .solo ↔ s.pair.enabled = false
  hold : s.pair.hold = true ↔ (s.pair.state = .claiming ∨ s.pair.state = .duty ∨ s.pair.state = .yielding)
  silence : s.pair.silence.isSome ↔ s.pair.state = .reserve
  guard : s.pair.guard.isSome ↔ s.pair.state = .claiming
  isolating : s.pair.isolating = true → s.pair.state = .duty ∨ s.pair.state = .yielding
  mismatch : s.pair.mismatch ≤ Config.mismatchLimit
  lost : s.pair.lost ≤ Config.lostLimit
  release : s.bus.releaseAll = true → mayDrive s = true

/-- Every head record keeps its limits (Table 7.1, R125), a test is pending in SERVING alone (R131), and the head of an
undefined placement is ABSENT (R8, R10). The stranger list keeps its limit and holds no serial twice (R121). -/
structure HeadsSound (s : State) : Prop where
  placed : ∀ h, (placementOf s h).defined = false → (headOf s h).state = .absent
  test : ∀ h, (headOf s h).testPending = true → (headOf s h).state = .serving
  waits : ∀ h, (headOf s h).waitCount < Config.waitLimit
  faults : ∀ h, (headOf s h).faultCount ≤ Config.faultLimit
  strangers : s.heads.strangers.length ≤ Config.strangerCapacity
  distinct : (s.heads.strangers.map Stranger.serial).Nodup

/-- The zone timers run in the states they belong to (R28 to R30), and the record of an undefined zone holds its reset
value (R22). -/
structure ZonesSound (s : State) : Prop where
  undefined : ∀ z, (look s.map.zones z).defined = false → zoneOf s z = ZoneRt.reset
  confirm : ∀ z, (zoneOf s z).confirm.isSome → (zoneOf s z).state = .suspect
  clearHold : ∀ z, (zoneOf s z).clearHold.isSome ↔ (zoneOf s z).state = .clearing
  silence : ∀ z, (zoneOf s z).silence.isSome → watched (zoneOf s z).state

/-- The availability of every defined exit is what Table 2.3 gives (R40), its contact state is NONE exactly where it has
no contact position (R39), and the runtime fields of an undefined exit are those that GET EXIT reports (R39). -/
structure ExitsSound (s : State) : Prop where
  available : ∀ e, (look s.map.exits e).defined = true → (exitOf s e).available = availabilityOf s e
  contact : ∀ e, (look s.map.exits e).defined = true →
    ((exitOf s e).contact = .none ↔ (look s.map.exits e).contact = none)
  undefined : ∀ e, (look s.map.exits e).defined = false → exitOf s e = ExitRt.reset

/-- The values of the tables and the settings lie in their ranges (R3, R6, R7, R42, R82, R83, R156), and the scanner keeps
its counts (R35) with a deferred mark on a full run alone (R37). -/
structure RangesSound (s : State) : Prop where
  length : ∀ x, 1 ≤ (look s.map.aisles x).length ∧ (look s.map.aisles x).length ≤ Config.lengthLimit
  width : ∀ x, 1 ≤ (look s.map.aisles x).width ∧ (look s.map.aisles x).width ≤ 4
  bias : ∀ e, (look s.map.exits e).baseBias ≤ Config.biasLimit ∧ (exitOf s e).bias ≤ Config.biasLimit
  thresholds : ∀ z, 1 ≤ (look s.map.zones z).suspect ∧ (look s.map.zones z).suspect < (look s.map.zones z).smoke
    ∧ (look s.map.zones z).smoke ≤ 255
  library : ∀ i steps, look s.selector.library i = some steps → scriptOk steps
  confirmTime : 2 ≤ s.timing.confirmTime ∧ s.timing.confirmTime ≤ 30
  clearHold : 10 ≤ s.timing.clearHold ∧ s.timing.clearHold ≤ 600
  silenceTime : 5 ≤ s.timing.silenceTime ∧ s.timing.silenceTime ≤ 120
  hysteresis : s.timing.hystAbs ≤ 2000 ∧ s.timing.hystPct ≤ 50
  phaseUnit : 10 ≤ s.timing.phaseUnit ∧ s.timing.phaseUnit ≤ 5000
  takeoverWait : 600 ≤ s.timing.takeoverWait ∧ s.timing.takeoverWait ≤ 5000
  runs : ∀ p, (look s.scanner p).count ≤ Config.debounceCount
  deferred : ∀ p, (look s.scanner p).deferred = true → (look s.scanner p).count = Config.debounceCount

/-- Routes are computed over a validated map alone (R11, R17, R158), and a validation runs in VALIDATING alone (R14, R20). -/
structure ModeSound (s : State) : Prop where
  validated : routing s = true → s.map.validated = true
  running : s.map.lastValidation = .running ↔ s.mode = .validating

/-! ## What the service of a request answers -/

/-- The notices of one event, offered in order (R167). -/
def offerAll (ns : List Notice) (l : Link) : Link := ns.foldl (fun l n => offerLink n l) l

/-- A complete request is served at once and none is in service (R163, R169). -/
def Ready (s : State) : Prop := readyToServe s = true ∧ s.link.serving = false

/-- The link while a request is in service, after the notices of its effect (R169). -/
def servingLink (ns : List Notice) (s : State) : Link := offerAll ns { s.link with serving := true }

/-- The link after the service of a request: the reply formed with its code, the status summary of the part as the
request leaves it and the data, the frame discarded flag cleared, and the reply begun by a free transmitter (R163, R165,
R169). That bits 2 to 7 of the summary's link flags are 0 is the model's choice, log 47. -/
def servedLink (f : PanelFrame) (code : ReplyCode) (data : List Byte) (l : Link) (t : State) : Link :=
  beginNext
    { l with
      reply := some ⟨replyType f.type code, f.tag, summaryBytes code { t with link := l } ++ data⟩
      discarded := false
      serving := false }

/-- The command is a request that the part serves: it is answered with the code and data given, from the link given as
its effect leaves it, and the part it leaves has the property given. -/
def ServesFrom (i : Instr) (s : State) (code : ReplyCode) (data : List Byte) (l : Link) (P : State → Prop) : Prop :=
  ∃ f t, encodeRequest i = some f ∧ exec i s = .next t ∧ t.link = servedLink f code data l t ∧ P t

/-- The command is a request that the part serves: it is answered with the code and data given, its effect offers the
notices given, and the part it leaves has the property given. -/
def Serves (i : Instr) (s : State) (code : ReplyCode) (data : List Byte) (ns : List Notice) (P : State → Prop) : Prop :=
  ServesFrom i s code data (servingLink ns s) P

/-- Nothing but the link differs. -/
def OnlyLink (s t : State) : Prop := { t with link := s.link } = s

/-- A request is refused: the code answers it and nothing but the link changes (R164). -/
def Refuses (i : Instr) (s : State) (code : ReplyCode) : Prop := Serves i s code [] [] (OnlyLink s)

/-! ## Displays -/

/-- What a recomputation of displays may change: the desired displays and the update queue (R80, R81). -/
def withDisplays (s t : State) : State :=
  { t with selector := { t.selector with desired := s.selector.desired }, queue := s.queue }

/-- The update queue keeps one entry a head at most (R88). -/
def oneEach (q : List Entry) : Prop := (q.map Entry.head).Nodup

/-- A head's display has been recomputed: it wants the display its inputs give, and the queue, `q` before, has taken it
where it is new and is as it was where it is not (R81, R90). -/
def Refreshed (h : HeadId) (q : List Entry) (s t : State) : Prop :=
  desiredOf t h = some (displayFor t h)
    ∧ t.queue =
      if desiredOf s h = some (displayFor t h) then q
      else queueDisplay h (headOf t h).confirmed (displayFor t h) q

/-- The update queue after the heads given, one after another, have had their displays recomputed: it takes each display
that is new (R81, R90). -/
def queueTakes (hs : List HeadId) (s t : State) : List Entry :=
  (hs.filter fun h => desiredOf s h != some (displayFor t h)).foldl
    (fun q h => queueDisplay h (headOf t h).confirmed (displayFor t h) q) s.queue

/-- The heads that have a desired display, in ascending index (R80, R81). -/
def displayed (s : State) : List HeadId := (List.finRange 64).filter fun h => (desiredOf s h).isSome

/-- Every head that has a desired display has had it recomputed, in ascending head index, and no other head has one (R80,
R81). -/
def Recomputed (s t : State) : Prop :=
  (∀ h, desiredOf t h = if (desiredOf s h).isSome then some (displayFor t h) else none)
    ∧ t.queue = queueTakes (displayed s) s t

/-! ## Exits and zones -/

/-- The defined exits that are chosen, re-evaluated (R40). -/
def reevaluated (chosen : ExitId → Bool) (s : State) : State :=
  { s with
    exits :=
      tabulate 24 fun e =>
        if (look s.map.exits e).defined && chosen e then { exitOf s e with available := availabilityOf s e }
        else exitOf s e }

/-- The chosen exits whose availability a re-evaluation changes, in ascending exit index (R40, R43). -/
def exitChanges (chosen : ExitId → Bool) (s : State) : List ExitId :=
  (List.finRange 24).filter fun e =>
    (look s.map.exits e).defined && chosen e && (availabilityOf s e != (exitOf s e).available)

/-- The EXIT notices of a re-evaluation (R43). -/
def exitNotices (chosen : ExitId → Bool) (s : State) : List Notice :=
  (exitChanges chosen s).map (exitNotice (reevaluated chosen s))

/-- Every exit. -/
def everyExit : ExitId → Bool := fun _ => true

/-- The exits whose points name a zone (R40). -/
def inZone (s : State) (z : ZoneId) : ExitId → Bool := fun e => exitZone s e == some z

/-- A map request has been accepted with its records written: the validated flag is clear and every defined exit is
re-evaluated (R11, R40). -/
def mapAccepted (s : State) : State := reevaluated everyExit { s with map := { s.map with validated := false } }

/-! ## The route engine -/

/-- A run starts (R63): from the snapshot of the part as it stands, with the working pairs of R52, in sweep 1. -/
def StartsRun (s t : State) : Prop :=
  t.engine =
    { s.engine with
      run := .sweeping
      snapshot := some (takeSnapshot t)
      pairs := initialPairs t.map (takeSnapshot t)
      sweep := 1
      changeMark := false
      abandonMark := false
      firmMark := decide (s.engine.abandonCount = 3)
      pendingFlag := false
      newTable := none }

/-- The engine takes a route-affecting change (R44, R63, Table 3.6). -/
def TakesChange (c : ChangeClass) (s t : State) : Prop :=
  if routing s = false then t.engine = s.engine
  else
    match s.engine.run with
    | .idle => StartsRun s t
    | .publishing => t.engine = { s.engine with pendingFlag := true }
    | .sweeping | .selecting =>
      match c with
      | .loosening => t.engine = { s.engine with pendingFlag := true }
      | .tightening =>
        if s.engine.firmMark then t.engine = { s.engine with pendingFlag := true }
        else t.engine = { s.engine with abandonMark := true }

/-- Changes handed to the engine one after another, each with the part as it stood then (R44, R63, R64). -/
def engineTakes (cs : List (ChangeClass × State)) (g : Engine) : Engine :=
  cs.foldl (fun g c => (handChange c.1 { c.2 with engine := g }).engine) g

/-- What a re-evaluation of the chosen exits hands to the engine (R40, R43, Table 2.4). -/
def exitHands (chosen : ExitId → Bool) (s : State) : List (ChangeClass × State) :=
  (exitChanges chosen s).map fun e =>
    (availabilityClass (availabilityOf s e), reevaluated (fun k => chosen k && decide (k ≤ e)) s)

/-- The part with a zone's state written (R33). -/
def zoneWritten (z : ZoneId) (new : ZoneState) (s : State) : State := setZoneRt z { zoneOf s z with state := new } s

/-- The notices of a zone's state change: its ZONE notice, then the EXIT notices of the exits that follow it (R33, R43). -/
def zoneNotices (z : ZoneId) (new : ZoneState) (cause : ZoneCause) (s : State) : List Notice :=
  .zone z (zoneOf s z).state new (zoneOf s z).lastReading cause :: exitNotices (inZone s z) (zoneWritten z new s)

/-- What a zone's state change hands to the engine: its own class, then those of the exits that follow it (R33, R43,
Table 2.4). -/
def zoneHands (z : ZoneId) (new : ZoneState) (s : State) : List (ChangeClass × State) :=
  (zoneClass (zoneOf s z).state new).toList.map (fun c => (c, zoneWritten z new s))
    ++ exitHands (inZone s z) (zoneWritten z new s)

/-- The request for ALARM that a zone's state change makes (R34). -/
def alarmAsked (z : ZoneId) (new : ZoneState) (s : State) : List ZoneId :=
  if new = .smoke ∧ s.mode = .guard ∧ s.timing.autoAlarm = true then [z] else []

/-- The part after a state change of a zone, but for the link (R33, R34, R40). -/
def zoneMoved (z : ZoneId) (new : ZoneState) (s : State) : State :=
  { reevaluated (inZone s z) (zoneWritten z new s) with
    engine := engineTakes (zoneHands z new s) s.engine
    alarmRequests := s.alarmRequests ++ alarmAsked z new s }

/-- The engine of SETUP and VALIDATING over the points of a map (R46, R68 to R70). -/
def restingEngine (map : MapStore) : Engine :=
  { Engine.reset with table := clearedTable map, digest := digestOf (clearedTable map) }

/-- Entry into GUARD at the zone monitor: silence timers started (R30), and with AUTO_ALARM set the lowest defined zone in
SMOKE asks for ALARM (R34). -/
def EntersGuard (s t : State) : Prop :=
  (∀ z, zoneOf t z =
    if (look s.map.zones z).defined && (look s.map.zones z).supervised && watched (zoneOf s z).state
        && (zoneOf s z).silence.isNone then
      { zoneOf s z with silence := some (s.now + 1000 * s.timing.silenceTime) }
    else zoneOf s z)
  ∧ t.alarmRequests =
    s.alarmRequests ++ (if s.timing.autoAlarm then (firstIndex 64 (zoneInSmoke s)).toList else [])

/-! ## Validation (R15, R16) -/

/-- A point from which people can walk to an EXIT point over defined aisles (R16). -/
inductive Reaches (m : MapStore) : PointId → Prop
  | exit (p : PointId) (h : isExitPoint m p = true) : Reaches m p
  | forward (x : AisleId) (d : (look m.aisles x).defined = true) (h : (look m.aisles x).passage.fromA = true)
      (r : Reaches m (look m.aisles x).endB) : Reaches m (look m.aisles x).endA
  | backward (x : AisleId) (d : (look m.aisles x).defined = true) (h : (look m.aisles x).passage.fromB = true)
      (r : Reaches m (look m.aisles x).endA) : Reaches m (look m.aisles x).endB

/-- The failures that the checks of Table 1.2 find in a map and a kind map. -/
inductive Fails (s : State) : Failure → Prop
  | noPoint (h : ∀ p, (look s.map.points p).defined = false) : Fails s ⟨1, .none, 0⟩
  | noExit (h : ∀ e, (look s.map.exits e).defined = false) : Fails s ⟨1, .none, 1⟩
  | aisleEnds (x : AisleId) (d : (look s.map.aisles x).defined = true)
      (h : ¬(pointDefined s.map (look s.map.aisles x).endA = true ∧ pointDefined s.map (look s.map.aisles x).endB = true
        ∧ (look s.map.aisles x).endA ≠ (look s.map.aisles x).endB)) : Fails s ⟨2, .aisle, x⟩
  | exitPoint (e : ExitId) (d : (look s.map.exits e).defined = true)
      (h : isExitPoint s.map (look s.map.exits e).point = false) : Fails s ⟨3, .exit, e⟩
  | pointExits (p : PointId) (d : isExitPoint s.map p = true)
      (h : ¬∃! e, (look s.map.exits e).defined = true ∧ (look s.map.exits e).point = p) : Fails s ⟨3, .point, p⟩
  | noWayOut (p : PointId) (d : pointDefined s.map p = true) (h : ¬Reaches s.map p) : Fails s ⟨4, .point, p⟩
  | pointZone (p : PointId) (z : ZoneId) (d : pointDefined s.map p = true) (n : (look s.map.points p).zone = some z)
      (h : (look s.map.zones z).defined = false) : Fails s ⟨5, .point, p⟩
  | aisleZone (x : AisleId) (z : ZoneId) (d : (look s.map.aisles x).defined = true)
      (n : (look s.map.aisles x).zone = some z) (h : (look s.map.zones z).defined = false) : Fails s ⟨5, .aisle, x⟩
  | placementPoint (k : HeadId) (d : (look s.map.placements k).defined = true)
      (e : (look s.map.placements k).enabled = true)
      (h : pointDefined s.map (look s.map.placements k).point = false) : Fails s ⟨6, .placement, k⟩
  | kindMapScript (i : Fin 10) (d : look s.selector.kindMap i ≠ 0)
      (h : scriptOf s.selector (look s.selector.kindMap i) = none) : Fails s ⟨7, .kindMap, i⟩

/-- The order in which Table 1.2 checks: by check, exits before points and points before aisles, then by index. -/
def Failure.rank (f : Failure) : Nat :=
  2000 * f.check + (if (f.check = 3 ∧ f.table = .point) ∨ (f.check = 5 ∧ f.table = .aisle) then 1000 else 0) + f.index

/-! ## Head records -/

/-- An outcome for one head: the records, desired displays and queue entries of the others are as before, and beside this
head's own, the link, the transaction in flight and what the heads on the bus do, nothing changes. -/
def OnlyHead (h : HeadId) (s t : State) : Prop :=
  (∀ k, k ≠ h → headOf t k = headOf s k ∧ desiredOf t k = desiredOf s k
    ∧ (oneEach s.queue → entryOf t.queue k = entryOf s.queue k))
  ∧ { t with
      heads := { t.heads with records := s.heads.records }
      selector := { t.selector with desired := s.selector.desired }
      queue := s.queue, link := s.link, bus := { t.bus with inFlight := s.bus.inFlight }, devices := s.devices } = s

/-- The frame timing with the slot that it gives for this moment: 2 ms a slot, 99 the last (R100, R143). -/
def timingNow (s : State) : Option FrameTiming :=
  s.bus.frame.map fun f => { f with slot := Fin.ofNat 100 (min 99 ((s.now - f.start) / 2)) }

/-- A transaction with a head is in flight, and the part has not been told of its end (R101). -/
def Awaits (s : State) (h : HeadId) (c : BusCommand) (address : Byte) : Prop :=
  ∃ tr, s.bus.inFlight = some tr ∧ tr.command = c ∧ tr.head = some h ∧ tr.address = address

/-! ## Outcomes of addressed commands (R113, R122 to R127, R129, Table 8.4) -/

/-- Why an addressed command has failed, with the reason of a REJECT: REJECT, no valid reply, or the sixteenth WAIT in a row
(R125, R126). -/
def failureOf (r : Head) : WindowClass → Option (HeadCause × Option RejectReason)
  | .valid (.reject x) => some (.reject, some x)
  | .silent => some (.noReply, none)
  | .garbled => some (.noReply, none)
  | .valid .wait => if r.waitCount = 15 then some (.waitLimit, none) else none
  | _ => none

/-- The record after a failed command (R125, R126). -/
def faulted (x : Option RejectReason) (r : Head) : Head :=
  { r with faultCount := min 65535 (r.faultCount + 1), lastReject := x.or r.lastReject, waitCount := 0 }

/-- The TEST notice of a pending test that ends with its head (R131). -/
def testLost (r : Head) (h : HeadId) : List Notice := if r.testPending then [.test h none] else []

/-- The HEAD notice of a change of state, with the counts that the change leaves (R132). -/
def headMoved (s t : State) (h : HeadId) (cause : HeadCause) : Notice :=
  .head (some h) (placementOf s h).serial (some (headOf s h).state) (some (headOf t h).state) cause
    (headOf t h).faultCount (headOf t h).lastReject none

/-- A head has dropped out of the display: no desired display and no queue entry (R71, R96). -/
def Dark (h : HeadId) (s t : State) : Prop :=
  desiredOf t h = none ∧ t.queue = s.queue.filter fun e => e.head != h

/-- A head's desired display and the queue are as before. -/
def SameDisplay (h : HeadId) (s t : State) : Prop := desiredOf t h = desiredOf s h ∧ t.queue = s.queue

/-- A WAIT short of the sixteenth: the wait count rises, and nothing else of the head changes (R125). -/
def Waited (h : HeadId) (s t : State) : Prop :=
  headOf t h = { headOf s h with waitCount := (headOf s h).waitCount + 1 } ∧ desiredOf t h = desiredOf s h
    ∧ t.link = s.link

/-- A failed command takes a head to RECOVERING, with its HEAD notice and its display computed (R126, R131). -/
def Recovers (h : HeadId) (s t : State) (cause : HeadCause) (x : Option RejectReason) : Prop :=
  headOf t h = { faulted x (headOf s h) with state := .recovering, testPending := false }
    ∧ t.link = offerAll (testLost (headOf s h) h ++ [headMoved s t h cause]) s.link ∧ Refreshed h s.queue s t

/-- An acknowledged ASSIGN: LOADING from an empty loading record, with its display computed (R122). -/
def AssignAcked (h : HeadId) (s t : State) : Prop :=
  headOf t h =
      { headOf s h with
        state := .loading, loaded := [], confirmed := none, generation := none, waitCount := 0, testPending := false }
    ∧ t.link = offerAll (testLost (headOf s h) h) s.link ∧ Refreshed h s.queue s t

/-- ASSIGN for a JOINING record (R122). -/
def AssignRow (h : HeadId) (w : WindowClass) (s t : State) : Prop :=
  (w = .valid .ack → AssignAcked h s t)
  ∧ (w = .valid .wait → (headOf s h).waitCount < 15 → Waited h s t ∧ t.queue = s.queue)
  ∧ ∀ cause x, failureOf (headOf s h) w = some (cause, x) →
    headOf t h =
        { Head.reset with
          faultCount := (faulted x (headOf s h)).faultCount, lastReject := (faulted x (headOf s h)).lastReject }
      ∧ t.link = offerAll (testLost (headOf s h) h) s.link ∧ Dark h s t

/-- SCRIPT for a LOADING record (R123). -/
def ScriptRow (h : HeadId) (generation script block : Byte) (w : WindowClass) (s t : State) : Prop :=
  let r : Head := { headOf s h with waitCount := 0 }
  (w = .valid .ack →
    (generation ≠ s.selector.generation → headOf t h = r ∧ t.link = s.link ∧ SameDisplay h s t)
    ∧ (generation = s.selector.generation → script = 0 →
      headOf t h = { r with generation := some generation, state := .serving }
        ∧ t.link = offerLink (headMoved s t h .loaded) s.link ∧ Refreshed h s.queue s t)
    ∧ (generation = s.selector.generation → script ≠ 0 →
      headOf t h = { r with loaded := (headOf t h).loaded }
        ∧ (∀ b, b ∈ (headOf t h).loaded ↔ b ∈ r.loaded ∨ b = (script.toNat, block.toNat))
        ∧ t.link = s.link ∧ SameDisplay h s t))
  ∧ (w = .valid .wait → (headOf s h).waitCount < 15 → Waited h s t ∧ t.queue = s.queue)
  ∧ ∀ cause x, failureOf (headOf s h) w = some (cause, x) → Recovers h s t cause x

/-- The record that the status of an ACK leaves, with the display that the command carried (R93, R124). -/
def acked (c : BusCommand) (st : AckStatus) (r : Head) : Head :=
  { r with
    confirmed := (carriedDisplay c).or r.confirmed, faultMask := st.mask, generation := st.generation, waitCount := 0 }

/-- The update queue after an ACK to a command (R93, R95). -/
def ackedQueue (h : HeadId) (c : BusCommand) (s : State) : List Entry :=
  match carriedDisplay c with
  | some d => queueAck h d (desiredOf s h) s.queue
  | none => s.queue

/-- A WAIT to DISPLAY, POLL or TEST short of the sixteenth: a DISPLAY's entry is held by the bus owner (R91, R94, R125,
R145). -/
def DisplayWaited (h : HeadId) (c : BusCommand) (observed : Bool) (s t : State) : Prop :=
  Waited h s t
    ∧ t.queue = (match c with
      | .display _ => if observed then s.queue else holdEntry h s.queue
      | _ => s.queue)

/-- DISPLAY, POLL or TEST for a SERVING record (R124 to R126, R131). -/
def ServingRow (h : HeadId) (c : BusCommand) (observed : Bool) (w : WindowClass) (s t : State) : Prop :=
  let r := headOf s h
  (∀ st, w = .valid (.ackStatus st) →
    let stale := st.generation ≠ some s.selector.generation
    let done : List Notice :=
      if c = .test ∧ r.testPending = true then
        [.test h
          (some ⟨st.mask, st.generation.isNone, st.mask.arrows &&& match r.abilities with | some a => a.arrows | none => 0⟩)]
      else []
    (¬stale →
      headOf t h = { acked c st r with testPending := r.testPending && decide (c ≠ .test) } ∧ t.link = offerAll done s.link)
    ∧ (stale →
      headOf t h = { acked c st r with state := .loading, loaded := [], testPending := false }
        ∧ t.link = offerAll (if c = .test then done else testLost r h) s.link)
    ∧ (stale ∨ r.faultMask ≠ st.mask → Refreshed h (ackedQueue h c s) s t)
    ∧ (¬stale → r.faultMask = st.mask → desiredOf t h = desiredOf s h ∧ t.queue = ackedQueue h c s))
  ∧ (w = .valid .wait → r.waitCount < 15 → DisplayWaited h c observed s t)
  ∧ ∀ cause x, failureOf r w = some (cause, x) → Recovers h s t cause x

/-- DISPLAY, POLL or TEST that finds a LOADING record (R129). -/
def LoadingRow (h : HeadId) (c : BusCommand) (observed : Bool) (w : WindowClass) (s t : State) : Prop :=
  let r := headOf s h
  (∀ st, w = .valid (.ackStatus st) →
    headOf t h = acked c st r ∧ t.link = s.link
    ∧ (r.faultMask ≠ st.mask → Refreshed h (ackedQueue h c s) s t)
    ∧ (r.faultMask = st.mask → desiredOf t h = desiredOf s h ∧ t.queue = ackedQueue h c s))
  ∧ (w = .valid .wait → r.waitCount < 15 → DisplayWaited h c observed s t)
  ∧ ∀ cause x, failureOf r w = some (cause, x) → Recovers h s t cause x

/-- An ACK taken as one to RESYNC: SERVING under the present generation, LOADING under another (R127, Table 8.4). -/
def ResyncAcked (h : HeadId) (c : BusCommand) (st : AckStatus) (s t : State) : Prop :=
  (if st.generation = some s.selector.generation then
    headOf t h = { acked c st (headOf s h) with state := .serving } ∧ t.link = offerLink (headMoved s t h .resynced) s.link
  else
    headOf t h = { acked c st (headOf s h) with state := .loading, loaded := [], testPending := false }
      ∧ t.link = offerAll (testLost (headOf s h) h) s.link)
  ∧ Refreshed h (ackedQueue h c s) s t

/-- RESYNC (R127). -/
def ResyncRow (h : HeadId) (c : BusCommand) (w : WindowClass) (s t : State) : Prop :=
  (∀ st, w = .valid (.ackStatus st) → ResyncAcked h c st s t)
  ∧ (w = .valid .wait → (headOf s h).waitCount < 15 → Waited h s t ∧ t.queue = s.queue)
  ∧ ∀ cause x, failureOf (headOf s h) w = some (cause, x) →
    headOf t h = { faulted x (headOf s h) with state := .failed, testPending := false }
      ∧ t.link = offerAll (testLost (headOf s h) h ++ [headMoved s t h cause]) s.link ∧ Dark h s t

/-- A failed command that an observer only counts (Table 8.4). -/
def FaultCounted (h : HeadId) (x : Option RejectReason) (s t : State) : Prop :=
  headOf t h = faulted x (headOf s h) ∧ t.link = s.link ∧ SameDisplay h s t

/-- An observed command on a record whose state it does not fit (Table 8.4): ASSIGN for a LOADING, SERVING or RECOVERING
record, SCRIPT for a SERVING or RECOVERING one, and DISPLAY, POLL or TEST for a RECOVERING one. -/
def ObservedRow (h : HeadId) (c : BusCommand) (w : WindowClass) (s t : State) : Prop :=
  match c with
  | .assign _ =>
    (w = .valid .ack → AssignAcked h s t)
    ∧ (w ≠ .valid .ack → headOf t h = headOf s h ∧ t.link = s.link ∧ SameDisplay h s t)
  | .script generation script block _ =>
    (w = .valid .ack →
      ∃ u, headOf u h = { headOf s h with state := .loading, loaded := [], testPending := false }
        ∧ u.link = offerAll (testLost (headOf s h) h) s.link ∧ Refreshed h s.queue s u ∧ OnlyHead h s u
        ∧ ScriptRow h generation script block w u t)
    ∧ (w = .valid .wait → (headOf s h).waitCount < 15 → Waited h s t ∧ t.queue = s.queue)
    ∧ ∀ cause x, failureOf (headOf s h) w = some (cause, x) →
      if (headOf s h).state = .serving then Recovers h s t cause x else FaultCounted h x s t
  | _ =>
    (∀ st, w = .valid (.ackStatus st) → ResyncAcked h c st s t)
    ∧ (w = .valid .wait → (headOf s h).waitCount < 15 → Waited h s t ∧ t.queue = s.queue)
    ∧ ∀ cause x, failureOf (headOf s h) w = some (cause, x) → FaultCounted h x s t

/-! ## Runs of commands -/

/-- Commands taken one after another, up to the first that stops the part. -/
def execAll : List Instr → State → Host.Outcome State Fault Refusal
  | [], s => .next s
  | c :: rest, s =>
    match exec c s with
    | .next t => execAll rest t
    | .fault r => .fault r
    | .refused r => .refused r

/-- Bytes received one after another without a framing error (R161). -/
def feedBytes (bytes : List Byte) (s : State) : Host.Outcome State Fault Refusal :=
  execAll (bytes.map fun b => .panelByteReceived b false) s

/-- Commands through which a request is served whose frame arrived byte by byte or waited in the buffer (R162, R163), and
a frame sent under a type of its own. -/
def relaysRequests : Instr → Bool
  | .panelByteReceived _ _ => true
  | .transmitFrameEnd => true
  | .unknownType _ _ _ => true
  | _ => false

end Sys2Proof.Machine
end

