-- ==== Sys2Proof/WellFormed.lean ====
section
/-! DEFINITION. Which commands can reach the part: the limits that the frames of section 11 set on what a command carries.
`exec` is total and does not rely on them. -/

namespace Sys2Proof

/-- The panel link gathers at most 256 unstuffed bytes, so a payload has at most 252 (R161, R162). -/
def payloadFits (payload : List Byte) : Bool := decide (payload.length ≤ 252)

/-- A sign bus frame is at most 36 bytes long: the longest reply window of Table 6.1. -/
def BusFrame.fits (f : BusFrame) : Bool := decide (f.payload.length ≤ 32)

/-- A reply window holds at most a frame that fits (R100, Table 6.1). -/
def Window.fits : Window → Bool
  | .frame f => f.fits
  | _ => true

/-- The checks on a command, one for each kind of operand that has a limit. -/
def Instr.wellFormed : Instr → Bool
  | .unknownType type _ payload => payloadFits payload && !requestTypes.contains type
  | .setScript _ _ _ body => decide (body.length ≤ 250)
  | .zoneReadings _ entries => decide (entries.length ≤ 126)
  | .transactionComplete w => w.fits
  | .observedBroadcast f w => f.fits && w.fits
  | .observedTransaction f w => f.fits && w.fits
  | .partnerQueryObserved f => f.fits
  | _ => true

end Sys2Proof
end

