-- ==== Sys2Proof/Certificates/Slice0/Obligations.lean ====
section
/-! DEFINITION. The statements about the EX64, in the order of the spec's numbered rules by block: the panel link and the
resets, modes and validation, the hall map, zones and exits, routes, displays and the update queue, the sign bus and the
heads, the pair, the queries, and the invariants that every step keeps. -/

open Sys2Proof Sys2Proof.Machine

/-! ## The queue, reset and the panel link -/

/-- A step takes the front command with the queue's rest (every rule of the spec is about a command as it is taken). With
none waiting the clock ticks: the model's choice, log 2. -/
def Obligations.StepTakesFrontCommand : Prop :=
  (∀ s c rest, s.pending = c :: rest → step s = exec c { s with pending := rest })
  ∧ ∀ s, s.pending = [] → step s = .next { s with now := s.now + 1 }

/-- Every value that a hard reset gives: Table 1.4 (R21), R22, R35, R39, Table 3.7 (R69), R71, R76, R82, R97, Table 6.2
(R101), Table 7.5 (R134), Table 8.1 (R135), Table 9.1 (R150), Table 10.4 (R170), with the MODE notice of R157 on the line.
Alarm requests, copy marks, present beat, outputs and the clock are the model's choices (logs 6, 8, 9, 10, 11, 33), and the
commands that wait and the heads on the bus are outside the part (logs 28, 33). -/
def Obligations.HardResetGivesEveryValue : Prop :=
  ∀ (speed : BitVec 2) (pairEn : Bool) (role : Role) (s : State),
    ∃ t, exec (.hardReset speed pairEn role) s = .next t
      ∧ (∀ p, look t.map.points p = ⟨false, .junction, none⟩)
      ∧ (∀ x, look t.map.aisles x = ⟨false, 0, 0, 1, 1, 0, .both, none, false⟩)
      ∧ (∀ e, look t.map.exits e = ⟨false, 0, 0, none⟩)
      ∧ (∀ z, look t.map.zones z = ⟨false, 40, 90, true⟩)
      ∧ (∀ h, look t.map.placements h = ⟨false, 0, 0, 0, false⟩)
      ∧ t.map.validated = false ∧ t.map.lastValidation = .none
      ∧ (∀ z, zoneOf t z = ⟨.clear, none, none, none, none⟩) ∧ t.alarmRequests = []
      ∧ (∀ p, look t.scanner p = ⟨.unknown, none, 0, false⟩)
      ∧ (∀ e, exitOf t e = ⟨.auto, 0, .none, false, false⟩)
      ∧ t.engine.run = .idle ∧ t.engine.snapshot = none ∧ (∀ p, look t.engine.pairs p = none) ∧ t.engine.sweep = 0
      ∧ t.engine.changeMark = false ∧ t.engine.abandonMark = false ∧ t.engine.firmMark = false
      ∧ t.engine.abandonCount = 0 ∧ t.engine.pendingFlag = false ∧ t.engine.newTable = none
      ∧ (∀ p, routeOf t p = ⟨.undefined, none, none, none⟩)
      ∧ t.engine.digest = crc16 (List.replicate 480 0xFF)
      ∧ (∀ h, desiredOf t h = none) ∧ (∀ i, look t.selector.library i = none) ∧ t.selector.generation = 0
      ∧ (∀ i, look t.selector.kindMap i = 0) ∧ t.queue = []
      ∧ t.bus = ⟨none, none, 0, 0, true, !pairEn, none, none⟩
      ∧ (∀ h, headOf t h = ⟨.absent, none, ⟨false, 0⟩, none, [], none, 0, 0, none, false, false⟩)
      ∧ t.heads.strangers = [] ∧ t.heads.lastFaulty = none
      ∧ t.pair = ⟨pairEn, role, if pairEn then .reserve else .solo, false,
          if pairEn then some (if role = .a then 1200 else 2400) else none, none, false, false, 0, 0, none, false, none⟩
      ∧ t.mode = .setup ∧ t.timing = ⟨6, 60, 20, true, 100, 15, 100, 1200⟩
      ∧ t.link = ⟨speed, .hunting, [], false, [], none,
          some (sendingOf (noticeFrame (.mode none .setup .hardReset .none none))), false, [], 0, false, false⟩
      ∧ t.now = 0 ∧ t.devices = s.devices ∧ t.heard = s.heard ∧ t.pending = s.pending

/-- The reset state is what a hard reset with LINK_SPEED 0, PAIR_EN clear and PAIR_ROLE A leaves (log 6), and it and the
part after any hard reset meet every invariant of the part. -/
def Obligations.ResetIsSound : Prop :=
  exec (.hardReset 0 false .a) State.reset = .next State.reset
  ∧ ∀ speed pairEn role s t, exec (.hardReset speed pairEn role) s = .next t →
    LinkSound t ∧ DisplaySound t ∧ EngineSound t ∧ RunSound t ∧ PairSound t ∧ HeadsSound t ∧ ZonesSound t ∧ ExitsSound t
      ∧ RangesSound t ∧ ModeSound t

/-- The frame of every request of Table 11.2 is read back as that request, and a frame that is read as a request is that
request's frame, so no byte of it is dropped; a type that the table does not list is UNKNOWN_TYPE (R164, R172). -/
def Obligations.RequestFramesRoundTrip : Prop :=
  (∀ i f, (∀ type tag payload, i ≠ .unknownType type tag payload) → encodeRequest i = some f → decodeRequest f = .ok i)
  ∧ (∀ f i, decodeRequest f = .ok i → encodeRequest i = some f ∧ ∀ type tag payload, i ≠ .unknownType type tag payload)
  ∧ ∀ type tag payload, requestTypes.contains type = false ↔ decodeRequest ⟨type, tag, payload⟩ = .error .unknownType

/-- The bytes of a request's frame, flags, escapes and CRC included, received one after another, do what the request
command does (R161 to R164, R169, R175). -/
def Obligations.FrameBytesServeRequest : Prop :=
  ∀ i f s, i.wellFormed = true → encodeRequest i = some f → s.link.gathered = [] → s.link.escape = false →
    feedBytes f.lineBytes s
      = exec i { s with link := { s.link with hunt := .gathering, gathered := [], escape := false } }

/-- One byte at the receiver, in every case of R161, with the judgement of a formed frame by R162: a frame of no bytes
is dropped, one that is not a frame with its correct CRC sets the frame discarded flag, and the others are taken as
requests. -/
def Obligations.ReceivedByte : Prop :=
  ∀ (b : Byte) (s : State),
    let receiver (hunt : Hunt) (gathered : List Byte) (escape discarded : Bool) : State :=
      { s with link := { s.link with hunt := hunt, gathered := gathered, escape := escape, discarded := discarded } }
    let gathers (x : Byte) : State :=
      if s.link.gathered.length = 256 then receiver .hunting [] false true
      else receiver .gathering (s.link.gathered ++ [x]) false s.link.discarded
    s.link.gathered.length ≤ 256 →
    (s.link.hunt = .hunting →
      exec (.panelByteReceived b true) s = .next s
      ∧ exec (.panelByteReceived b false) s
        = .next (if b = 0x7E then receiver .gathering [] false s.link.discarded else s))
    ∧ (s.link.hunt = .gathering →
      exec (.panelByteReceived b true) s = .next (receiver .hunting [] false true)
      ∧ (b = 0x7E → s.link.escape = true →
          exec (.panelByteReceived b false) s = .next (receiver .gathering [] false true))
      ∧ (b = 0x7E → s.link.escape = false → s.link.gathered = [] →
          exec (.panelByteReceived b false) s = .next (receiver .gathering [] false s.link.discarded))
      ∧ (b = 0x7E → s.link.escape = false → s.link.gathered ≠ [] → (∀ f : PanelFrame, f.unstuffed ≠ s.link.gathered) →
          exec (.panelByteReceived b false) s = .next (receiver .gathering [] false true))
      ∧ (∀ f : PanelFrame, b = 0x7E → s.link.escape = false → s.link.gathered = f.unstuffed →
          exec (.panelByteReceived b false) s
            = exec (.unknownType f.type f.tag f.payload) (receiver .gathering [] false s.link.discarded))
      ∧ (b ≠ 0x7E → s.link.escape = true → exec (.panelByteReceived b false) s = .next (gathers (b ^^^ 0x20)))
      ∧ (b = 0x7D → s.link.escape = false →
          exec (.panelByteReceived b false) s = .next (receiver .gathering s.link.gathered true s.link.discarded))
      ∧ (b ≠ 0x7E → b ≠ 0x7D → s.link.escape = false → exec (.panelByteReceived b false) s = .next (gathers b)))

/-- A request frame of any type: a type that Table 11.2 lists with a payload of its length is served as that request,
one with another length is refused BAD_LENGTH, and a type that the table does not list is refused UNKNOWN_TYPE (R164). A
complete request that arrives while a reply waits in the reply slot or another request waits joins the receive buffer,
and is discarded where two wait (R163); it holds for every request. -/
def Obligations.RequestsServedOrWait : Prop :=
  (∀ (type tag : Byte) (payload : List Byte) (s : State),
      (∀ i, decodeRequest ⟨type, tag, payload⟩ = .ok i → exec (.unknownType type tag payload) s = exec i s)
      ∧ (∀ code, decodeRequest ⟨type, tag, payload⟩ = .error code →
          code = (if requestTypes.contains type then .badLength else .unknownType)
          ∧ (Ready s → Refuses (.unknownType type tag payload) s code)
          ∧ (readyToServe s = false →
            exec (.unknownType type tag payload) s
              = .next
                (if s.link.buffer.length < 2 then
                  { s with link := { s.link with buffer := s.link.buffer ++ [⟨type, tag, payload⟩] } }
                else { s with link := { s.link with discarded := true } }))))
  ∧ (∀ i f s, encodeRequest i = some f → readyToServe s = false →
      exec i s
        = .next
          (if s.link.buffer.length < 2 then { s with link := { s.link with buffer := s.link.buffer ++ [f] } }
          else { s with link := { s.link with discarded := true } }))

/-- Every request that a ready part takes is answered by one reply with its tag, the type of R172 and a status summary
of the part as the request leaves it, no data beside any code but DONE, and the frame discarded flag is reported and
cleared. The reply is on the line at once where the transmitter is free, and waits in the reply slot otherwise (R163,
R165, R169). RESTART clears the flag before its reply (R158), and has a statement of its own. That bits 2 to 7 of the
link flags are 0 is the model's choice, log 47. -/
def Obligations.ReadyRequestAnswered : Prop :=
  ∀ i f s, encodeRequest i = some f → f.type ≠ 0x2A → Ready s →
    ∃ t code data, exec i s = .next t
      ∧ (let reply : PanelFrame :=
          ⟨if code = .unknownType then 0x80 else f.type + 0x80, f.tag,
            [replyByte code, modeCode t.mode, pairStateCode t.pair.state,
              (if t.link.lossMark then 1 else 0) ||| (if s.link.discarded then 2 else 0)] ++ data⟩
        (s.link.sending = none → t.link.sending = some ⟨reply, reply.lineBytes⟩ ∧ t.link.reply = none)
        ∧ (s.link.sending.isSome → t.link.sending = s.link.sending ∧ t.link.reply = some reply))
      ∧ (code ≠ .done → data = []) ∧ t.link.discarded = false ∧ t.link.serving = false
      ∧ t.link.buffer = s.link.buffer ∧ t.link.hunt = s.link.hunt ∧ t.link.gathered = s.link.gathered
      ∧ t.link.escape = s.link.escape ∧ t.link.speed = s.link.speed

/-- A frame on the line ends: a reply that waits is begun first, else the first queued notice, else the line stays idle
(R169); then a request that waited for the reply slot is served (R163). With no frame on the line nothing happens: the
model's choice, log 5. -/
def Obligations.TransmitFrameEnd : Prop :=
  ∀ s, s.link.serving = false →
    (s.link.sending = none → exec .transmitFrameEnd s = .next s)
    ∧ (s.link.sending.isSome → s.link.reply = none → s.link.buffer = [] → s.link.notices = [] →
        exec .transmitFrameEnd s = .next { s with link := { s.link with sending := none } })
    ∧ (∀ n rest, s.link.sending.isSome → s.link.reply = none → s.link.buffer = [] → s.link.notices = n :: rest →
        exec .transmitFrameEnd s
          = .next { s with link := { s.link with sending := some (sendingOf (noticeFrame n)), notices := rest } })
    ∧ (∀ r, s.link.sending.isSome → s.link.reply = some r → s.link.buffer = [] →
        exec .transmitFrameEnd s
          = .next { s with link := { s.link with sending := some (sendingOf r), reply := none } })
    ∧ (∀ r q, s.link.sending.isSome → s.link.reply = some r → s.link.buffer = [q] →
        exec .transmitFrameEnd s
          = exec (.unknownType q.type q.tag q.payload)
            { s with link := { s.link with sending := some (sendingOf r), reply := none, buffer := [] } })
    ∧ (∀ r q rest, s.link.sending.isSome → s.link.reply = some r → s.link.buffer = q :: rest →
        ∃ t, exec .transmitFrameEnd s = .next t ∧ t.link.sending = some (sendingOf r) ∧ t.link.reply.isSome
          ∧ t.link.buffer = rest)

/-- An offered notice: a masked kind is dropped, a full queue of 32 sets the notice loss mark instead, and the notice joins
the queue otherwise (R167); a free transmitter with no request in service and no reply begins the first queued notice at
once (R169). Nothing else of the link changes. -/
def Obligations.OfferedNotice : Prop :=
  ∀ (n : Notice) (l : Link),
    (l.filter.getLsbD (noticeKind n).val = true → offerLink n l = l)
    ∧ (l.filter.getLsbD (noticeKind n).val = false →
      (32 ≤ l.notices.length → offerLink n l = { l with lossMark := true })
      ∧ (l.notices.length < 32 →
        (l.sending.isSome → offerLink n l = { l with notices := l.notices ++ [n] })
        ∧ (l.reply = none → l.serving = true → offerLink n l = { l with notices := l.notices ++ [n] })
        ∧ (l.sending = none → l.reply = none → l.serving = false → l.notices = [] →
          offerLink n l = { l with sending := some (sendingOf (noticeFrame n)) })
        ∧ (∀ m rest, l.sending = none → l.reply = none → l.serving = false → l.notices = m :: rest →
          offerLink n l = { l with sending := some (sendingOf (noticeFrame m)), notices := rest ++ [n] })))

/-- SET NOTICE FILTER masks the kinds of its second byte and refuses a set bit in its first, and CLEAR NOTICE LOSS clears
the loss mark (R168, R172). -/
def Obligations.FilterAndLossRequests : Prop :=
  ∀ (tag : Byte) (mask : Half) (s : State), Ready s →
    (hiByte mask = 0 →
      ServesFrom (.setNoticeFilter tag mask) s .done [] { s.link with serving := true, filter := loByte mask } (OnlyLink s))
    ∧ (hiByte mask ≠ 0 → Refuses (.setNoticeFilter tag mask) s .badValue)
    ∧ ServesFrom (.clearNoticeLoss tag) s .done [] { s.link with serving := true, lossMark := false } (OnlyLink s)

/-! ## Modes, validation, settings and RESTART -/

/-- ARM in SETUP enters VALIDATING with the result RUNNING and its MODE notice, and is refused in every other mode (R14,
R20, R151, Table 9.2). -/
def Obligations.ArmStartsValidation : Prop :=
  ∀ tag s, Ready s →
    (s.mode = .setup →
      Serves (.arm tag) s .done [] [.mode (some .setup) .validating .arm .none none] fun t =>
        t.mode = .validating ∧ t.map.lastValidation = .running ∧ Recomputed s t
        ∧ { withDisplays s t with
            link := s.link, mode := s.mode, map := { t.map with lastValidation := s.map.lastValidation } } = s)
    ∧ (s.mode ≠ .setup → Refuses (.arm tag) s .wrongMode)

/-- The end of a validation. Where it passes, the map is validated, every defined exit's runtime bias is its base bias,
the mode is GUARD with its MODE notice, a route run starts and the zone monitor enters GUARD (R17, R30, R34, R44, R151).
Where it fails, the mode returns to SETUP with the failure record of the first record that fails and its MODE notice
(R15, R18, R151). Outside VALIDATING nothing happens: the model's choice, log 5. -/
def Obligations.ValidationEnds : Prop :=
  (∀ s, s.mode = .validating → validate s = none →
      ∃ t, exec .validationComplete s = .next t
        ∧ t.mode = .guard ∧ t.map = { s.map with validated := true, lastValidation := .passed }
        ∧ (∀ e, exitOf t e =
            if (look s.map.exits e).defined then { exitOf s e with bias := (look s.map.exits e).baseBias } else exitOf s e)
        ∧ StartsRun s t ∧ EntersGuard { s with mode := .guard } t ∧ Recomputed s t
        ∧ t.link = offerLink (.mode (some .validating) .guard .passed .passed none) s.link
        ∧ { withDisplays s t with
            mode := s.mode, map := s.map, exits := s.exits, engine := s.engine, zones := s.zones
            alarmRequests := s.alarmRequests, link := s.link } = s)
  ∧ (∀ s,
      (∀ f, s.mode = .validating → validate s = some f →
        ∃ t, exec .validationComplete s = .next t
          ∧ t.mode = .setup ∧ t.map = { s.map with validated := false, lastValidation := .failed f } ∧ Recomputed s t
          ∧ t.link = offerLink (.mode (some .validating) .setup .failed (.failed f) none) s.link
          ∧ { withDisplays s t with mode := s.mode, map := s.map, link := s.link } = s)
      ∧ (s.mode ≠ .validating → exec .validationComplete s = .next s))

/-- Validation finds the first failure of Table 1.2: none where no check fails, and otherwise a failure that no other
precedes in the table's order; check 4 finds exactly the defined points from which no walk over defined aisles reaches an
EXIT point, whatever is blocked or in smoke (R15, R16). -/
def Obligations.ValidationFindsFirstFailure : Prop :=
  ∀ s,
    (validate s = none → ∀ f, ¬Fails s f)
    ∧ ∀ f, validate s = some f → Fails s f ∧ ∀ g, Fails s g → f.rank ≤ g.rank

/-- DISARM: from GUARD to SETUP with the engine at rest on the cleared table, a publication in progress being completed
first with its ROUTES notice (R68, R153; that its displays are those of SETUP already is the model's reading, log 35);
from VALIDATING to SETUP with the result CANCELLED (R19); refused elsewhere (Table 9.2). -/
def Obligations.DisarmEffect : Prop :=
  ∀ tag s, Ready s →
    (s.mode = .guard → s.engine.run ≠ .publishing →
      Serves (.disarm tag) s .done [] [.mode (some .guard) .setup .disarm .none none] fun t =>
        t.mode = .setup ∧ t.engine = restingEngine s.map ∧ Recomputed s t
        ∧ { withDisplays s t with link := s.link, mode := s.mode, engine := s.engine } = s)
    ∧ (∀ table, s.mode = .guard → s.engine.run = .publishing → s.engine.newTable = some table →
      let u := replaceTable (withTargets s.map table) { s with mode := .setup }
      Serves (.disarm tag) s .done []
        [.mode (some .guard) .setup .disarm .none none, routesNotice u (changedHeads u)] fun t =>
          t.mode = .setup ∧ t.engine = restingEngine s.map ∧ Recomputed s t
          ∧ { withDisplays s t with link := s.link, mode := s.mode, engine := s.engine } = s)
    ∧ (s.mode = .validating →
      Serves (.disarm tag) s .done [] [.mode (some .validating) .setup .cancelled .cancelled none] fun t =>
        t.mode = .setup ∧ t.map = { s.map with lastValidation := .cancelled } ∧ Recomputed s t
        ∧ { withDisplays s t with link := s.link, mode := s.mode, map := s.map } = s)
    ∧ (s.mode = .setup ∨ s.mode = .alarm → Refuses (.disarm tag) s .wrongMode)

/-- ALARM from GUARD, by the host's request or by an automatic request that carries its zone, and STAND DOWN back to GUARD,
which is refused ZONES_ACTIVE while AUTO_ALARM is set and a defined zone is in SMOKE or CLEARING (R34, R151, R154, R155,
Table 9.2). An automatic request outside GUARD is ignored; with none on its way nothing happens (log 9). -/
def Obligations.AlarmAndStandDown : Prop :=
  ∀ tag s,
    (Ready s →
      (s.mode = .guard →
        Serves (.alarm tag) s .done [] [.mode (some .guard) .alarm .alarm .none none] fun t =>
          t.mode = .alarm ∧ Recomputed s t ∧ { withDisplays s t with link := s.link, mode := s.mode } = s)
      ∧ (s.mode ≠ .guard → Refuses (.alarm tag) s .wrongMode)
      ∧ (s.mode ≠ .alarm → Refuses (.standDown tag) s .wrongMode)
      ∧ (s.mode = .alarm → s.timing.autoAlarm = true →
          (∃ z, (look s.map.zones z).defined = true ∧ ((zoneOf s z).state = .smoke ∨ (zoneOf s z).state = .clearing)) →
          Refuses (.standDown tag) s .zonesActive)
      ∧ (s.mode = .alarm →
          (s.timing.autoAlarm = true →
            ∀ z, (look s.map.zones z).defined = true →
              (zoneOf s z).state ≠ .smoke ∧ (zoneOf s z).state ≠ .clearing) →
          Serves (.standDown tag) s .done [] [.mode (some .alarm) .guard .standDown .none none] fun t =>
            t.mode = .guard ∧ EntersGuard { s with mode := .guard } t ∧ Recomputed s t
            ∧ { withDisplays s t with
                link := s.link, mode := s.mode, zones := s.zones, alarmRequests := s.alarmRequests } = s))
    ∧ (s.alarmRequests = [] → exec .autoAlarmRequest s = .next s)
    ∧ ∀ z rest, s.alarmRequests = z :: rest →
      (s.mode ≠ .guard → exec .autoAlarmRequest s = .next { s with alarmRequests := rest })
      ∧ (s.mode = .guard →
        ∃ t, exec .autoAlarmRequest s = .next t ∧ t.mode = .alarm ∧ t.alarmRequests = rest ∧ Recomputed s t
          ∧ t.link = offerLink (.mode (some .guard) .alarm .autoAlarm .none (some z)) s.link
          ∧ { withDisplays s t with mode := s.mode, alarmRequests := s.alarmRequests, link := s.link } = s)

/-- SET TIMING stores the nearer end of the range of Table 9.1 for a value outside it and then answers CLAMPED; AUTO_ALARM
takes 0 and 1 alone; a changed PHASE_UNIT recomputes the displays; it is taken in SETUP and GUARD (R79, R156). -/
def Obligations.SetTimingStores : Prop :=
  ∀ (tag setting : Byte) (value : Half) (s : State), Ready s →
    (∀ low high,
      (setting.toNat, low, high) ∈
        [(0, 2, 30), (1, 10, 600), (2, 5, 120), (4, 0, 2000), (5, 0, 50), (6, 10, 5000), (7, 600, 5000)] →
      s.mode = .setup ∨ s.mode = .guard →
      Serves (.setTiming tag setting value) s
        (if low ≤ value.toNat ∧ value.toNat ≤ high then .done else .clamped) [] [] fun t =>
          timingValue t.timing setting.toNat
            = (if value.toNat < low then low else if high < value.toNat then high else value.toNat)
          ∧ (∀ other, other < 8 → other ≠ setting.toNat → timingValue t.timing other = timingValue s.timing other)
          ∧ (if t.timing.phaseUnit = s.timing.phaseUnit then { t with link := s.link, timing := s.timing } = s
            else Recomputed s t ∧ { withDisplays s t with link := s.link, timing := s.timing } = s))
    ∧ (setting.toNat = 3 → value.toNat ≤ 1 → s.mode = .setup ∨ s.mode = .guard →
      Serves (.setTiming tag setting value) s .done [] [] fun t =>
        { t with link := s.link } = { s with timing := { s.timing with autoAlarm := decide (value.toNat = 1) } })
    ∧ ((setting.toNat = 3 ∧ 2 ≤ value.toNat) ∨ 8 ≤ setting.toNat → s.mode = .setup ∨ s.mode = .guard →
      Refuses (.setTiming tag setting value) s .badValue)
    ∧ (s.mode = .validating ∨ s.mode = .alarm → Refuses (.setTiming tag setting value) s .wrongMode)

/-- RESTART, in the order of R158: the queued notices, the loss mark and the frame discarded flag are cleared, a
validation is cancelled, zones, scanner, defined exits, blocked flags and engine take their RESTART values (R5, R22,
R35, R39, R69), with an EXIT notice for each exit that becomes AVAILABLE, and the mode is GUARD over a validated map,
with its timers and a route run, and SETUP otherwise. It is refused in ALARM. That requests for ALARM on their way stay
is the model's reading, log 9, and that the EXIT notices follow in ascending exit index is its choice, log 37. -/
def Obligations.RestartEffect : Prop :=
  ∀ tag s, Ready s →
    (s.mode = .alarm → Refuses (.restart tag) s .wrongMode)
    ∧ (s.mode ≠ .alarm →
      let m : Mode := if s.map.validated then .guard else .setup
      let contact (e : ExitId) : ExitContact := if (look s.map.exits e).contact.isSome then .unknown else .none
      let fresh (e : ExitId) : ExitRt :=
        ⟨.auto, (look s.map.exits e).baseBias, contact e, true, (look s.map.exits e).contact.isSome⟩
      let opened : List Notice :=
        ((List.finRange 24).filter fun e => (look s.map.exits e).defined && !(exitOf s e).available).map fun e =>
          .exit e true .auto (contact e) ((exitZone s e).map fun _ => .clear)
      ServesFrom (.restart tag) s .done []
        (offerAll
          (opened ++ [.mode (some s.mode) m .restart (if s.mode = .validating then .cancelled else .none) none])
          { s.link with serving := true, notices := [], lossMark := false, discarded := false }) fun t =>
            t.mode = m
            ∧ (∀ p, look t.scanner p = ⟨.unknown, none, 0, false⟩)
            ∧ (∀ e, exitOf t e = if (look s.map.exits e).defined then fresh e else exitOf s e)
            ∧ (∀ x, look t.map.aisles x = { look s.map.aisles x with blocked := false })
            ∧ { t.map with aisles := s.map.aisles, lastValidation := s.map.lastValidation } = s.map
            ∧ t.map.lastValidation = (if s.mode = .validating then .cancelled else s.map.lastValidation)
            ∧ (∀ z, zoneOf t z =
                ⟨.clear, none, none, none,
                  if m = .guard ∧ (look s.map.zones z).defined ∧ (look s.map.zones z).supervised then
                    some (s.now + 1000 * s.timing.silenceTime)
                  else none⟩)
            ∧ (if m = .guard then StartsRun { s with engine := restingEngine s.map } t
              else t.engine = restingEngine s.map)
            ∧ Recomputed s t
            ∧ { withDisplays s t with
                link := s.link, mode := s.mode, map := s.map, zones := s.zones, scanner := s.scanner
                exits := s.exits, engine := s.engine } = s)

/-- The mode changes along the arrows of section 9 alone: into VALIDATING from SETUP, into ALARM from GUARD, out of
ALARM to GUARD, and to SETUP or GUARD otherwise; ALARM leads to SETUP by a hard reset alone (R152 to R155, R158). -/
def Obligations.ModeTransitions : Prop :=
  ∀ c s t, exec c s = .next t → t.mode ≠ s.mode →
    (t.mode = .validating → s.mode = .setup)
    ∧ (t.mode = .alarm → s.mode = .guard)
    ∧ (s.mode = .alarm → t.mode = .guard ∨ ∃ speed pairEn role, c = .hardReset speed pairEn role)
    ∧ (t.mode = .guard → s.mode = .setup → s.map.validated = true)

/-! ## The hall map, scripts and kind map -/

/-- Outside SETUP the map is frozen: no command but a hard reset changes a point, an exit, a zone, a placement, a
script, the library generation or the kind map, or anything of an aisle but its blocked flag, and every map request is
refused WRONG_MODE, after its length alone has been checked (R1, R5, R10, R12, R77, R83, R164, Table 9.2). -/
def Obligations.MapFrozenOutsideSetup : Prop :=
  (∀ c s t, exec c s = .next t → s.mode ≠ .setup → (∀ speed pairEn role, c ≠ .hardReset speed pairEn role) →
      t.map.points = s.map.points ∧ t.map.exits = s.map.exits ∧ t.map.zones = s.map.zones
      ∧ t.map.placements = s.map.placements
      ∧ (∀ x, { look t.map.aisles x with blocked := (look s.map.aisles x).blocked } = look s.map.aisles x)
      ∧ t.selector.library = s.selector.library ∧ t.selector.generation = s.selector.generation
      ∧ t.selector.kindMap = s.selector.kindMap)
  ∧ (∀ (tag a b c d e f g : Byte) (v w : Half) (serial : Serial) (body : List Byte) (s : State),
      Ready s → s.mode ≠ .setup →
      Refuses (.clearMap tag) s .wrongMode ∧ Refuses (.setPoint tag a b c d) s .wrongMode
      ∧ Refuses (.setAisle tag a v b c w d e f g) s .wrongMode ∧ Refuses (.setExit tag a b c v d e) s .wrongMode
      ∧ Refuses (.setZone tag a b c d e) s .wrongMode ∧ Refuses (.placeHead tag a serial b c d) s .wrongMode
      ∧ Refuses (.unplaceHead tag a) s .wrongMode ∧ Refuses (.setKindMap tag a b) s .wrongMode
      ∧ (scriptLengthOk a body = true → Refuses (.setScript tag a b body) s .wrongMode)
      ∧ (scriptLengthOk a body = false → Refuses (.setScript tag a b body) s .badLength))

/-- SET POINT in SETUP: DEFINE writes the record, REMOVE clears the defined flag alone, the cleared table and its digest
follow, and the request is accepted; an index or zone out of range is BAD_INDEX, then another action or kind BAD_VALUE
(R1, R2, R11, R40, R46, R47, R171). An unknown action with a bad index is BAD_INDEX: log 34. The EXIT notices of the
exits that an acceptance re-evaluates follow in ascending exit index: the model's choice, log 37. -/
def Obligations.SetPoint : Prop :=
  ∀ (tag action index kind zone : Byte) (s : State), Ready s → s.mode = .setup →
    let written (p : PointId) (r : Point) : State :=
      let table := store s.engine.table p (if r.defined then ⟨.noRoute, none, none, none⟩ else ⟨.undefined, none, none, none⟩)
      { s with
        map := { s.map with points := store s.map.points p r, validated := false }
        engine := { s.engine with table := table, digest := digestOf table } }
    (240 ≤ index.toNat → Refuses (.setPoint tag action index kind zone) s .badIndex)
    ∧ ∀ p : PointId, index.toNat = p.val →
      (action = 0 →
        let u := written p { look s.map.points p with defined := false }
        Serves (.setPoint tag action index kind zone) s .done [] (exitNotices everyExit u) fun t =>
          { t with link := s.link } = reevaluated everyExit u)
      ∧ (action ≠ 0 → 64 ≤ zone.toNat → zone ≠ 0xFF → Refuses (.setPoint tag action index kind zone) s .badIndex)
      ∧ ∀ z, zoneField zone = some z →
        (∀ k, action = 1 → pointKindOf kind = some k →
          let u := written p ⟨true, k, z⟩
          Serves (.setPoint tag action index kind zone) s .done [] (exitNotices everyExit u) fun t =>
            { t with link := s.link } = reevaluated everyExit u)
        ∧ (2 ≤ action.toNat ∨ (action = 1 ∧ 2 ≤ kind.toNat) →
          Refuses (.setPoint tag action index kind zone) s .badValue)

/-- SET AISLE in SETUP: DEFINE writes the record and keeps the blocked flag, REMOVE clears the defined and the blocked
flag alone; an index out of range is BAD_INDEX, then a value out of range BAD_VALUE (R1, R3, R4, R5, R11, R40). The EXIT
notices of the exits that an acceptance re-evaluates follow in ascending exit index: the model's choice, log 37. -/
def Obligations.SetAisle : Prop :=
  ∀ (tag action : Byte) (index : Half) (endA endB : Byte) (length : Half) (width bearing passage zone : Byte) (s : State),
    Ready s → s.mode = .setup →
    let request : Instr := .setAisle tag action index endA endB length width bearing passage zone
    let written (x : AisleId) (r : Aisle) : State :=
      { s with map := { s.map with aisles := store s.map.aisles x r, validated := false } }
    let accepted (u : State) : Prop :=
      Serves request s .done [] (exitNotices everyExit u) fun t => { t with link := s.link } = reevaluated everyExit u
    (480 ≤ index.toNat → Refuses request s .badIndex)
    ∧ ∀ x : AisleId, index.toNat = x.val →
      (action = 0 → accepted (written x { look s.map.aisles x with defined := false, blocked := false }))
      ∧ (action ≠ 0 → 240 ≤ endA.toNat ∨ 240 ≤ endB.toNat ∨ (64 ≤ zone.toNat ∧ zone ≠ 0xFF) → Refuses request s .badIndex)
      ∧ ∀ (a b : PointId) (z : Option ZoneId), endA.toNat = a.val → endB.toNat = b.val → zoneField zone = some z →
        (∀ (g : Bearing) (way : Passage), action = 1 → bearing.toNat = g.val → passageOf passage = some way →
          1 ≤ length.toNat → length.toNat ≤ 4000 → 1 ≤ width.toNat → width.toNat ≤ 4 →
          accepted (written x ⟨true, a, b, length.toNat, width.toNat, g, way, z, (look s.map.aisles x).blocked⟩))
        ∧ (2 ≤ action.toNat
            ∨ (action = 1 ∧ (16 ≤ bearing.toNat ∨ 3 ≤ passage.toNat ∨ length.toNat = 0 ∨ 4000 < length.toNat
              ∨ width.toNat = 0 ∨ 4 < width.toNat)) → Refuses request s .badValue)

/-- SET EXIT in SETUP: DEFINE writes the record, a base bias over 5000 being stored as 5000 with CLAMPED; an exit that
was undefined takes fresh runtime fields, and one that was defined loses its contact state alone; REMOVE clears the
defined flag and gives the EXIT notice of an exit that was AVAILABLE (R1, R6, R11, R39, R40, R43). That this notice
comes first and those of the other exits follow in ascending exit index is the model's choice, logs 20 and 37. -/
def Obligations.SetExit : Prop :=
  ∀ (tag action index point : Byte) (bias : Half) (row column : Byte) (s : State), Ready s → s.mode = .setup →
    let request : Instr := .setExit tag action index point bias row column
    let code : ReplyCode := if 5000 < bias.toNat then .clamped else .done
    (24 ≤ index.toNat → Refuses request s .badIndex)
    ∧ ∀ e : ExitId, index.toNat = e.val →
      (action = 0 →
        let u : State :=
          { s with
            map := { s.map with
              exits := store s.map.exits e { look s.map.exits e with defined := false }, validated := false }
            exits := store s.exits e ⟨.auto, 0, .none, false, false⟩ }
        Serves request s .done []
          ((if (exitOf s e).available then [.exit e false .auto .none none] else []) ++ exitNotices everyExit u) fun t =>
            { t with link := s.link } = reevaluated everyExit u)
      ∧ (action ≠ 0 → 240 ≤ point.toNat ∨ contactField row column = none → Refuses request s .badIndex)
      ∧ ∀ (p : PointId) (c : Option Position), point.toNat = p.val → contactField row column = some c →
        (2 ≤ action.toNat → Refuses request s .badValue)
        ∧ (action = 1 →
          let b := min 5000 bias.toNat
          let contact : ExitContact := if c.isSome then .unknown else .none
          let v : State :=
            { s with map := { s.map with exits := store s.map.exits e ⟨true, p, b, c⟩, validated := false } }
          let u : State :=
            { v with
              exits := store s.exits e
                (if (look s.map.exits e).defined then { exitOf s e with contact := contact, copyDue := c.isSome }
                else ⟨.auto, b, contact, availability .auto contact (exitZoneState v e), c.isSome⟩) }
          Serves request s code [] (exitNotices everyExit u) fun t => { t with link := s.link } = reevaluated everyExit u)

/-- SET ZONE in SETUP: thresholds of 0 select 40 and 90, the suspect threshold is brought into 1 to 254 and the smoke
threshold into suspect + 1 to 255 with CLAMPED, and a zone that becomes defined or undefined takes its runtime reset
values (R1, R7, R11, R22, R40, R171). That a supervised byte of 2 or more is BAD_VALUE is the model's reading, log 17.
The EXIT notices of the exits that an acceptance re-evaluates follow in ascending exit index: the model's choice, log
37. -/
def Obligations.SetZone : Prop :=
  ∀ (tag action index suspect smoke sup : Byte) (s : State), Ready s → s.mode = .setup →
    let request : Instr := .setZone tag action index suspect smoke sup
    let wantSuspect := if suspect = 0 then 40 else suspect.toNat
    let wantSmoke := if smoke = 0 then 90 else smoke.toNat
    let gotSuspect := if wantSuspect = 255 then 254 else wantSuspect
    let gotSmoke := if wantSmoke ≤ gotSuspect then gotSuspect + 1 else wantSmoke
    (64 ≤ index.toNat → Refuses request s .badIndex)
    ∧ ∀ z : ZoneId, index.toNat = z.val →
      (action = 0 →
        let u : State :=
          { s with
            map := { s.map with
              zones := store s.map.zones z { look s.map.zones z with defined := false }, validated := false }
            zones := store s.zones z ⟨.clear, none, none, none, none⟩ }
        Serves request s .done [] (exitNotices everyExit u) fun t => { t with link := s.link } = reevaluated everyExit u)
      ∧ (2 ≤ action.toNat ∨ (action = 1 ∧ 2 ≤ sup.toNat) → Refuses request s .badValue)
      ∧ (action = 1 → sup.toNat ≤ 1 →
        let u : State :=
          { s with
            map := { s.map with
              zones := store s.map.zones z ⟨true, gotSuspect, gotSmoke, decide (sup = 1)⟩, validated := false }
            zones := if (look s.map.zones z).defined then s.zones
              else store s.zones z ⟨.clear, none, none, none, none⟩ }
        Serves request s (if gotSuspect = wantSuspect ∧ gotSmoke = wantSmoke then .done else .clamped) []
          (exitNotices everyExit u) fun t => { t with link := s.link } = reevaluated everyExit u)

/-- PLACE HEAD in SETUP places an ABSENT head and takes its serial off the stranger list, after its checks: indices,
values, IN_SERVICE, a serial held by another defined placement (R1, R8, R9, R11). UNPLACE HEAD clears the defined flag
of a defined placement and makes its head ABSENT (R10, R118, R131). That an enabled byte of 2 or more is BAD_VALUE is
the model's reading of R171, log 17. That a TEST notice comes before the EXIT notices, and these in ascending exit
index, is its choice, logs 20 and 37. -/
def Obligations.PlaceAndUnplaceHead : Prop :=
  ∀ (tag index : Byte) (serial : Serial) (point facing enabled : Byte) (s : State), Ready s → s.mode = .setup →
    let request : Instr := .placeHead tag index serial point facing enabled
    (64 ≤ index.toNat → Refuses request s .badIndex ∧ Refuses (.unplaceHead tag index) s .badIndex)
    ∧ ∀ h : HeadId, index.toNat = h.val →
      (240 ≤ point.toNat → Refuses request s .badIndex)
      ∧ (∀ p : PointId, point.toNat = p.val →
        (16 ≤ facing.toNat ∨ 2 ≤ enabled.toNat → Refuses request s .badValue)
        ∧ ∀ g : Bearing, facing.toNat = g.val → enabled.toNat ≤ 1 →
          let taken := ∃ k, k ≠ h ∧ (placementOf s k).defined = true ∧ (placementOf s k).serial = serial
          let u : State :=
            { s with
              map := { s.map with
                placements := store s.map.placements h ⟨true, serial, p, g, decide (enabled = 1)⟩, validated := false }
              heads := { s.heads with strangers := s.heads.strangers.filter fun x => x.serial != serial } }
          ((headOf s h).state ≠ .absent → Refuses request s .inService)
          ∧ ((headOf s h).state = .absent → taken → Refuses request s .badValue)
          ∧ ((headOf s h).state = .absent → ¬taken →
            Serves request s .done [] (exitNotices everyExit u) fun t =>
              { t with link := s.link } = reevaluated everyExit u))
      ∧ ((placementOf s h).defined = false →
        let u : State := { s with map := { s.map with validated := false } }
        Serves (.unplaceHead tag index) s .done [] (exitNotices everyExit u) fun t =>
          { t with link := s.link } = reevaluated everyExit u)
      ∧ ((placementOf s h).defined = true →
        let u : State :=
          { s with
            map := { s.map with
              placements := store s.map.placements h { placementOf s h with defined := false }, validated := false }
            heads := { s.heads with records := store s.heads.records h Head.reset }
            selector := { s.selector with desired := store s.selector.desired h none }
            queue := s.queue.filter fun e => e.head != h }
        Serves (.unplaceHead tag index) s .done []
          ((if (headOf s h).testPending then [.test h none] else []) ++ exitNotices everyExit u) fun t =>
            { t with link := s.link } = reevaluated everyExit u)

/-- CLEAR MAP in SETUP unplaces every placed head, removes every exit and zone, and leaves the tables of a hard reset with
the cleared table over them (R10, R12, R21, R43, R46, R131). That the TEST notices come before the EXIT notices is the
model's choice, log 20. -/
def Obligations.ClearMap : Prop :=
  ∀ tag s, Ready s → s.mode = .setup →
    let placed (h : HeadId) : Bool := (placementOf s h).defined
    let tests : List Notice :=
      ((List.finRange 64).filter fun h => placed h && (headOf s h).testPending).map fun h => .test h none
    let closed : List Notice :=
      ((List.finRange 24).filter fun e => (look s.map.exits e).defined && (exitOf s e).available).map fun e =>
        .exit e false .auto .none none
    Serves (.clearMap tag) s .done [] (tests ++ closed) fun t =>
      { t with link := s.link } =
        { s with
          map := MapStore.reset
          zones := Vector.replicate 64 ⟨.clear, none, none, none, none⟩
          exits := Vector.replicate 24 ⟨.auto, 0, .none, false, false⟩
          engine := { s.engine with table := clearedTable MapStore.reset, digest := digestOf (clearedTable MapStore.reset) }
          heads := { s.heads with records := tabulate 64 fun h => if placed h then Head.reset else headOf s h }
          selector := { s.selector with desired := tabulate 64 fun h => if placed h then none else desiredOf s h }
          queue := s.queue.filter fun e => !placed e.head }

/-- SET SCRIPT in SETUP: DEFINE takes 1 to 24 steps, each LIGHT holding 1 to 8 beats and each LOOP aimed at an earlier
LIGHT with a count of 0 to 15, and REMOVE undefines the script; the library generation rises by one modulo 256, every
SERVING head goes back to LOADING with an empty loading record, as every other head's becomes, and the displays are
recomputed, with the queue taking the new ones, of the heads that were SERVING first, each part in ascending head index
(R81 to R84, R90, R123, R131). SET KIND MAP writes one entry and recomputes the displays; an entry over 9 or a script
over 12 is BAD_INDEX (R1, R76, R77, R80). That the EXIT notices follow in ascending exit index, and behind them the TEST
notices in ascending head index, is the model's choice, logs 37 and 20, and so is that the bits of a step without a
field are not checked, log 46. -/
def Obligations.SetScriptAndKindMap : Prop :=
  (∀ (tag action script : Byte) (body : List Byte) (s : State), Ready s → s.mode = .setup →
      let request : Instr := .setScript tag action script body
      let accepted (i : Fin 12) (steps : Option (List ScriptStep)) : Prop :=
        let w : State :=
          { s with
            map := { s.map with validated := false }
            selector := { s.selector with
              library := store s.selector.library i steps, generation := s.selector.generation + 1 } }
        let tests : List Notice :=
          ((List.finRange 64).filter fun h => decide ((headOf s h).state = .serving) && (headOf s h).testPending).map fun h =>
            .test h none
        Serves request s .done [] (exitNotices everyExit w ++ tests) fun t =>
          (∀ h, headOf t h =
              if (headOf s h).state = .serving then { headOf s h with state := .loading, loaded := [], testPending := false }
              else { headOf s h with loaded := [] })
          ∧ (∀ h,
              desiredOf t h =
                if (desiredOf s h).isSome ∨ (headOf s h).state = .serving then some (displayFor t h) else none)
          ∧ t.queue =
            queueTakes
              (((List.finRange 64).filter fun h => decide ((headOf s h).state = .serving))
                ++ (displayed s).filter fun h => decide ((headOf s h).state ≠ .serving)) s t
          ∧ { withDisplays s t with link := s.link, heads := { t.heads with records := s.heads.records } }
            = reevaluated everyExit w
      (action = 0 → body ≠ [] → Refuses request s .badLength)
      ∧ (action = 1 → body = [] → Refuses request s .badLength)
      ∧ (∀ n steps, action = 1 → body = n :: steps → steps.length ≠ 2 * n.toNat → Refuses request s .badLength)
      ∧ (script.toNat = 0 ∨ 13 ≤ script.toNat → scriptLengthOk action body = true → Refuses request s .badIndex)
      ∧ ∀ i : Fin 12, script.toNat = i.val + 1 →
        (action = 0 → body = [] → accepted i none)
        ∧ (∀ n bytes steps, action = 1 → body = n :: bytes → bytes.length = 2 * n.toNat → stepsOf bytes = some steps →
            scriptOk steps = true → accepted i (some steps))
        ∧ (∀ n bytes, action = 1 → body = n :: bytes → bytes.length = 2 * n.toNat →
            (∀ steps, stepsOf bytes = some steps → scriptOk steps = false) → Refuses request s .badValue)
        ∧ (2 ≤ action.toNat → Refuses request s .badValue))
  ∧ (∀ steps : List ScriptStep,
      scriptOk steps = true ↔
        1 ≤ steps.length ∧ steps.length ≤ 24
        ∧ ∀ (n : Nat) (step : ScriptStep), steps[n]? = some step →
          match step with
          | .light _ _ hold => 1 ≤ hold ∧ hold ≤ 8
          | .loop target count => target < n ∧ count ≤ 15 ∧ ∃ arrow glyph hold, steps[target]? = some (.light arrow glyph hold)
          | .finish => True)
  ∧ (∀ (tag entry script : Byte) (s : State), Ready s → s.mode = .setup →
      (10 ≤ entry.toNat ∨ 13 ≤ script.toNat → Refuses (.setKindMap tag entry script) s .badIndex)
      ∧ ∀ (i : Fin 10) (n : ScriptId), entry.toNat = i.val → script.toNat = n.val →
        let u : State :=
          { s with
            map := { s.map with validated := false }
            selector := { s.selector with kindMap := store s.selector.kindMap i n } }
        Serves (.setKindMap tag entry script) s .done [] (exitNotices everyExit u) fun t =>
          Recomputed s t ∧ { withDisplays s t with link := s.link } = reevaluated everyExit u)

/-- BLOCK AISLE and OPEN AISLE set and clear the blocked flag of a defined aisle in every mode, and hand a change of it to
the route engine, which takes it by Table 3.6: an idle engine starts a run, a tightening change sets the abandon mark of an
unfirm run before publication, and every other change sets the pending flag (R5, R44, R63, R64, R67). -/
def Obligations.BlockAndOpenAisle : Prop :=
  ∀ (tag : Byte) (index : Half) (s : State), Ready s →
    (480 ≤ index.toNat → Refuses (.blockAisle tag index) s .badIndex ∧ Refuses (.openAisle tag index) s .badIndex)
    ∧ ∀ x : AisleId, index.toNat = x.val →
      let a := look s.map.aisles x
      let written (b : Bool) : State :=
        { s with map := { s.map with aisles := store s.map.aisles x { a with blocked := b } } }
      (a.defined = false → Refuses (.blockAisle tag index) s .badIndex ∧ Refuses (.openAisle tag index) s .badIndex)
      ∧ (a.defined = true →
        (a.blocked = true → Serves (.blockAisle tag index) s .done [] [] (OnlyLink s))
        ∧ (a.blocked = false → Serves (.openAisle tag index) s .done [] [] (OnlyLink s))
        ∧ (a.blocked = false →
          Serves (.blockAisle tag index) s .done [] [] fun t =>
            { t with link := s.link, engine := s.engine } = written true ∧ TakesChange .tightening s t)
        ∧ (a.blocked = true →
          Serves (.openAisle tag index) s .done [] [] fun t =>
            { t with link := s.link, engine := s.engine } = written false ∧ TakesChange .loosening s t))

/-! ## Smoke zones, gate contacts and exits -/

/-- One reading of a defined zone (R23 to R27, R28 to R30): the level is stored, judged against the state and the
thresholds of the zone, and the silence timer of a supervised zone left in CLEAR or SUSPECT restarts. -/
def Obligations.OneReading : Prop :=
  ∀ (tag index level : Byte) (s : State) (z : ZoneId), Ready s → index.toNat = z.val →
    (look s.map.zones z).defined = true →
    let zone := look s.map.zones z
    let r : ZoneRt := { zoneOf s z with lastReading := some level }
    let soon := some (s.now + 1000 * s.timing.confirmTime)
    let held := some (s.now + 1000 * s.timing.clearHold)
    let at_ (x : ZoneRt) : State := setZoneRt z x s
    let restarted (u : State) : State :=
      if zone.supervised && watched (zoneOf u z).state then
        setZoneRt z { zoneOf u z with silence := some (s.now + 1000 * s.timing.silenceTime) } u
      else u
    let answers (ns : List Notice) (u : State) : Prop :=
      Serves (.zoneReadings tag [(index, level)]) s .done [] ns fun t => { t with link := s.link } = restarted u
    let moves (new : ZoneState) (x : ZoneRt) : Prop := answers (zoneNotices z new .reading (at_ x)) (zoneMoved z new (at_ x))
    let low := level.toNat < zone.suspect
    let high := zone.smoke ≤ level.toNat
    zone.suspect < zone.smoke →
    match r.state with
    | .clear =>
      (low → answers [] (at_ r)) ∧ (¬low → ¬high → moves .suspect r) ∧ (high → moves .suspect { r with confirm := soon })
    | .suspect =>
      (low → moves .clear { r with confirm := none }) ∧ (¬low → ¬high → answers [] (at_ { r with confirm := none }))
      ∧ (high → answers [] (at_ { r with confirm := if r.confirm.isSome then r.confirm else soon }))
    | .smoke => (low → moves .clearing { r with clearHold := held }) ∧ (¬low → answers [] (at_ r))
    | .clearing => (low → answers [] (at_ r)) ∧ (¬low → moves .smoke { r with clearHold := none })
    | .silent =>
      let u := zoneMoved z .clear (at_ r)
      let v := if high then setZoneRt z { zoneOf u z with confirm := soon } u else u
      (low → moves .clear r)
      ∧ (¬low →
        answers (zoneNotices z .clear .reading (at_ r) ++ zoneNotices z .suspect .reading v) (zoneMoved z .suspect v))

/-- ZONE READINGS takes its 1 to 64 entries one after another, as ZONE READINGS of its parts would; an entry for no defined
zone is skipped and answered BAD_INDEX, and another count is BAD_LENGTH (R23, R164). -/
def Obligations.ReadingsInOrder : Prop :=
  ∀ (tag : Byte) (entries : List (Byte × Byte)) (s : State), Ready s →
    (entries.length = 0 ∨ 64 < entries.length → Refuses (.zoneReadings tag entries) s .badLength)
    ∧ (1 ≤ entries.length → entries.length ≤ 64 →
      let known (e : Byte × Byte) : Prop := ∃ z : ZoneId, e.1.toNat = z.val ∧ (look s.map.zones z).defined = true
      ∃ code ns u, Serves (.zoneReadings tag entries) s code [] ns (fun t => { t with link := s.link } = u)
        ∧ u.map = s.map ∧ u.timing = s.timing ∧ u.now = s.now ∧ u.mode = s.mode
        ∧ ((∀ e ∈ entries, known e) → code = .done) ∧ ((∃ e ∈ entries, ¬known e) → code = .badIndex)
        ∧ (∀ index level, entries = [(index, level)] → ¬known (index, level) → u = s)
        ∧ ∀ first rest, entries = first ++ rest → first ≠ [] → rest ≠ [] →
          ∃ c₁ n₁ v c₂ n₂,
            Serves (.zoneReadings tag first) s c₁ [] n₁ (fun t => { t with link := s.link } = v)
            ∧ Serves (.zoneReadings tag rest) v c₂ [] n₂ (fun t => { t with link := s.link } = u) ∧ ns = n₁ ++ n₂)

/-- CONFIRM ZONE stops the three timers of a defined zone and takes it to SMOKE, with no second change where it is there
already; another index is BAD_INDEX (R31, R33). The confirm timer takes a zone from SUSPECT to SMOKE (R28), the
clear-hold timer from CLEARING to CLEAR and starts a supervised zone's silence timer (R29), and the silence timer from
CLEAR or SUSPECT to SILENT with its confirm timer stopped, or stops alone in a zone no longer supervised (R30). A zone
change is handed to the engine with its class of Table 2.4, and SMOKE to CLEARING is not handed (R44). An expiry brings
the clock up to the timer's, and is taken only while the timer runs: the model's choices, log 3. -/
def Obligations.ConfirmZoneAndTimers : Prop :=
  (∀ (tag index : Byte) (s : State), Ready s →
      ((∀ z : ZoneId, index.toNat = z.val → (look s.map.zones z).defined = false) →
        Refuses (.confirmZone tag index) s .badIndex)
      ∧ ∀ z : ZoneId, index.toNat = z.val → (look s.map.zones z).defined = true →
        let u := setZoneRt z { zoneOf s z with confirm := none, clearHold := none, silence := none } s
        ((zoneOf s z).state = .smoke →
          Serves (.confirmZone tag index) s .done [] [] fun t => { t with link := s.link } = u)
        ∧ ((zoneOf s z).state ≠ .smoke →
          Serves (.confirmZone tag index) s .done [] (zoneNotices z .smoke .confirmZone u) fun t =>
            { t with link := s.link } = zoneMoved z .smoke u))
  ∧ (∀ (z : ZoneId) (s : State),
      let r := zoneOf s z
      let at_ (time : Nat) (x : ZoneRt) : State := setZoneRt z x { s with now := max s.now time }
      let moves (i : Instr) (new : ZoneState) (cause : ZoneCause) (u : State) : Prop :=
        exec i s = .next { zoneMoved z new u with link := offerAll (zoneNotices z new cause u) s.link }
      (r.confirm = none → exec (.confirmTimerExpiry z) s = .next s)
      ∧ (r.clearHold = none → exec (.clearHoldExpiry z) s = .next s)
      ∧ (r.silence = none → exec (.zoneSilenceExpiry z) s = .next s)
      ∧ (∀ time, r.confirm = some time → r.state = .suspect →
          moves (.confirmTimerExpiry z) .smoke .confirmExpiry (at_ time { r with confirm := none, silence := none }))
      ∧ (∀ time, r.clearHold = some time → r.state = .clearing →
          moves (.clearHoldExpiry z) .clear .clearHoldExpiry
            (at_ time
              { r with
                clearHold := none
                silence := if (look s.map.zones z).supervised then some (max s.now time + 1000 * s.timing.silenceTime)
                  else r.silence }))
      ∧ (∀ time, r.silence = some time → r.state = .clear ∨ r.state = .suspect → (look s.map.zones z).supervised = true →
          moves (.zoneSilenceExpiry z) .silent .silenceExpiry (at_ time { r with silence := none, confirm := none }))
      ∧ (∀ time, r.silence = some time → (look s.map.zones z).supervised = false →
          exec (.zoneSilenceExpiry z) s = .next (at_ time { r with silence := none })))
  ∧ (∀ old new : ZoneState,
      (zoneClass old new = some .tightening ↔
        (old, new) ∈
          [(.clear, .suspect), (.clear, .silent), (.clear, .smoke), (.suspect, .smoke), (.silent, .smoke),
            (.clearing, .smoke)])
      ∧ (zoneClass old new = some .loosening ↔
        (old, new) ∈ [(.suspect, .clear), (.silent, .clear), (.suspect, .silent), (.clearing, .clear)])
      ∧ zoneClass .smoke .clearing = none)

/-- A scan of the gate contacts: each position's run and count follow its level, a position with a full run of the other
level is a candidate, the first 4 candidates are accepted, deferred ones before the others and each part in row-major
order, and the rest are deferred (R35 to R37). -/
def Obligations.GateScanPositions : Prop :=
  ∀ (levels : BitVec 32) (s : State),
    let run (p : PositionId) : Contact :=
      let c := look s.scanner p
      let l := levels.getLsbD p.val
      if c.level = some l then { c with count := min 5 (c.count + 1) }
      else { state := c.state, level := some l, count := 1, deferred := false }
    let reads (p : PositionId) : ContactState := if levels.getLsbD p.val then .made else .broken
    let candidate (p : PositionId) : Prop := (run p).count = 5 ∧ (run p).state ≠ reads p
    let before (q p : PositionId) : Prop :=
      ((run q).deferred = true ∧ (run p).deferred = false) ∨ ((run q).deferred = (run p).deferred ∧ q < p)
    let accepted (p : PositionId) : Prop :=
      candidate p ∧ ∀ l : List PositionId, l.Nodup → (∀ q ∈ l, candidate q ∧ before q p) → l.length < 4
    ∃ t, exec (.gateScan levels) s = .next t
      ∧ (∀ p,
        (accepted p → look t.scanner p = { run p with state := reads p, deferred := false })
        ∧ (candidate p → ¬accepted p → look t.scanner p = { run p with deferred := true })
        ∧ (¬candidate p → look t.scanner p = run p))
      ∧ { t with scanner := s.scanner, exits := s.exits, engine := s.engine, link := s.link } = s

/-- What a scan brings to the exits: an exit whose first copy is due takes its position's contact state at the end of the
scan (R39), another takes it when its position changes, and each is then re-evaluated, every change of availability
giving one EXIT notice and being handed to the engine, one after another in the order of acceptance: deferred positions
first, each part in row-major order (R37 to R40, R43, R44, Table 2.6). That an accepted change reaches an exit only once
its first copy is made is the model's reading, log 11, and that exits of one position and first copies follow in
ascending exit index its choice, log 37. -/
def Obligations.GateScanExits : Prop :=
  ∀ (levels : BitVec 32) (s : State),
    let turn (e : ExitId) : Nat :=
      match (exitOf s e).copyDue, (look s.map.exits e).contact with
      | false, some p => (if (look s.scanner p.number).deferred then 0 else 2000) + 32 * p.number.val + e.val
      | _, _ => 4000 + e.val
    ∃ (t : State) (order : List ExitId), exec (.gateScan levels) s = .next t
      ∧ (∀ e,
        let x := look s.map.exits e
        let follows (p : Position) : Prop :=
          (exitOf s e).copyDue = true ∨ (look t.scanner p.number).state ≠ (look s.scanner p.number).state
        (x.defined = false ∨ x.contact = none → exitOf t e = exitOf s e)
        ∧ ∀ p, x.defined = true → x.contact = some p →
          (follows p →
            exitOf t e =
              { exitOf s e with
                contact := match (look t.scanner p.number).state with
                  | .unknown => .unknown
                  | .made => .made
                  | .broken => .broken
                copyDue := false
                available := availabilityOf t e })
          ∧ (¬follows p → exitOf t e = exitOf s e))
      ∧ (order.Pairwise fun a b => turn a < turn b)
      ∧ (∀ e, e ∈ order ↔ (exitOf t e).available ≠ (exitOf s e).available)
      ∧ t.link = offerAll (order.map (exitNotice t)) s.link
      ∧ t.engine =
        engineTakes
          (order.map fun e =>
            (if (exitOf t e).available then .loosening else .tightening,
              { s with exits := tabulate 24 fun k => if turn k ≤ turn e then exitOf t k else exitOf s k }))
          s.engine
      ∧ (routing s = false ∨ (∀ e, (exitOf t e).available = (exitOf s e).available) → t.engine = s.engine)
      ∧ (∀ e, (∀ k, k ≠ e → (exitOf t k).available = (exitOf s k).available) →
          (exitOf t e).available ≠ (exitOf s e).available →
          TakesChange (if (exitOf t e).available then .loosening else .tightening) s t)
      ∧ t.engine.table = s.engine.table ∧ t.engine.digest = s.engine.digest

/-- EXIT OVERRIDE writes the override of a defined exit and re-evaluates it, a change of availability giving its EXIT
notice and being handed to the engine by Table 2.4; the checks run mode, index, value (R40, R41, R43). EXIT BIAS writes
the runtime bias, a value over 5000 being stored as 5000 with CLAMPED; a changed bias of an AVAILABLE exit is handed to
the engine, raised as tightening and lowered as loosening (R42, Table 2.4). The availability that an exit's inputs give
is that of Table 2.3, an undefined point or an absent zone counting as CLEAR (R40). -/
def Obligations.ExitRequests : Prop :=
  (∀ (tag index value : Byte) (s : State), Ready s →
      let request : Instr := .exitOverride tag index value
      (s.mode = .setup → Refuses request s .wrongMode)
      ∧ (s.mode ≠ .setup → (∀ e : ExitId, index.toNat = e.val → (look s.map.exits e).defined = false) →
        Refuses request s .badIndex)
      ∧ ∀ e : ExitId, s.mode ≠ .setup → index.toNat = e.val → (look s.map.exits e).defined = true →
        (3 ≤ value.toNat → Refuses request s .badValue)
        ∧ ∀ o, overrideOf value = some o →
          let u := setExitRt e { exitOf s e with override := o } s
          let v := setExitRt e { exitOf s e with override := o, available := availabilityOf u e } s
          (availabilityOf u e = (exitOf s e).available →
            Serves request s .done [] [] fun t => { t with link := s.link } = u)
          ∧ (availabilityOf u e ≠ (exitOf s e).available →
            Serves request s .done [] [exitNotice v e] fun t =>
              { t with link := s.link, engine := s.engine } = v
              ∧ TakesChange (if availabilityOf u e then .loosening else .tightening) s t))
  ∧ (∀ (tag index : Byte) (value : Half) (s : State), Ready s →
      let request : Instr := .exitBias tag index value
      (s.mode = .setup → Refuses request s .wrongMode)
      ∧ (s.mode ≠ .setup → (∀ e : ExitId, index.toNat = e.val → (look s.map.exits e).defined = false) →
        Refuses request s .badIndex)
      ∧ ∀ e : ExitId, s.mode ≠ .setup → index.toNat = e.val → (look s.map.exits e).defined = true →
        let b := min 5000 value.toNat
        let old := (exitOf s e).bias
        Serves request s (if 5000 < value.toNat then .clamped else .done) [] [] fun t =>
          { t with link := s.link, engine := s.engine } = setExitRt e { exitOf s e with bias := b } s
          ∧ ((exitOf s e).available = false ∨ b = old → t.engine = s.engine)
          ∧ ((exitOf s e).available = true → old < b → TakesChange .tightening s t)
          ∧ ((exitOf s e).available = true → b < old → TakesChange .loosening s t))
  ∧ (∀ (s : State) (e : ExitId),
      let x := exitOf s e
      let p := look s.map.points (look s.map.exits e).point
      let zone : ZoneState :=
        match p.defined, p.zone with
        | true, some z => (zoneOf s z).state
        | _, _ => .clear
      (x.override = .forcedOpen → availabilityOf s e = true)
      ∧ (x.override = .forcedClosed → availabilityOf s e = false)
      ∧ (x.override = .auto → x.contact = .broken → availabilityOf s e = false)
      ∧ (x.override = .auto → x.contact ≠ .broken → zone = .smoke ∨ zone = .clearing → availabilityOf s e = false)
      ∧ (x.override = .auto → x.contact ≠ .broken → zone = .clear ∨ zone = .suspect ∨ zone = .silent →
          availabilityOf s e = true))

/-! ## Routes -/

/-- The end of a sweep: an abandon mark gives the run up, the abandon count rises to at most 3 and a new run starts,
firm at 3 (R65, R67); else a sweep that changed a pair is followed by another, up to the 240th, and otherwise selection
begins (R54). With no sweep in progress nothing happens: the model's choice, log 5. -/
def Obligations.SweepEnd : Prop :=
  ∀ s,
    (s.engine.run ≠ .sweeping → exec .sweepEnd s = .next s)
    ∧ ∀ sn, s.engine.run = .sweeping → s.engine.snapshot = some sn →
      let swept := sweepTable s.map sn s.engine.pairs
      ∃ t, exec .sweepEnd s = .next t ∧ { t with engine := s.engine } = s
        ∧ (s.engine.abandonMark = true →
          StartsRun { s with engine := { s.engine with abandonCount := min 3 (s.engine.abandonCount + 1) } } t)
        ∧ (s.engine.abandonMark = false → swept.2 = true → s.engine.sweep < 240 →
          t.engine = { s.engine with pairs := swept.1, sweep := s.engine.sweep + 1, changeMark := false })
        ∧ (s.engine.abandonMark = false → swept.2 = false ∨ 240 ≤ s.engine.sweep →
          t.engine = { s.engine with run := .selecting, pairs := swept.1, changeMark := swept.2 })

/-- When selection begins, the working pairs are the best pairs of the snapshot: the pair of a point is the cost of a route
from it, no route from it is better, and a point without a pair has no route (R51 to R55). -/
def Obligations.BestPairsAreBest : Prop :=
  ∀ s sn, RunSound s → s.engine.run = .selecting → s.engine.snapshot = some sn → s.engine.changeMark = false →
    ∀ p,
      (∀ b, look s.engine.pairs p = some b →
        Walk s.map sn p b ∧ ∀ other, Walk s.map sn p other → other.better b = false)
      ∧ (look s.engine.pairs p = none → ∀ other, ¬Walk s.map sn p other)

/-- The end of selection: an abandon mark gives the run up (R65); else the new table holds for each point the record of
R56 to R58, an aisle being a candidate where it is usable, may be walked and leads to a point with a better best pair, and
the table waits for publication. With no selection in progress nothing happens: the model's choice, log 5. -/
def Obligations.SelectionEnd : Prop :=
  ∀ s,
    (s.engine.run ≠ .selecting → exec .selectionEnd s = .next s)
    ∧ ∀ sn, s.engine.run = .selecting → s.engine.snapshot = some sn →
      let offers (p : PointId) (b : Pair) (x : AisleId) (c : Pair) : Prop :=
        (look sn.aisles x).usable = true
        ∧ ∃ q bq, walkTo (look s.map.aisles x) (look sn.aisles x).passage p = some q ∧ look s.engine.pairs q = some bq
          ∧ bq.better b = true ∧ c = bq.add (aisleStep s.map sn x)
      let near (p : PointId) (b : Pair) (x : AisleId) : Prop :=
        ∃ c, offers p b x c ∧ c.smoke = b.smoke ∧ c.walk ≤ b.walk + max sn.hystAbs (b.walk * sn.hystPct / 100)
      let exitHere (p : PointId) (b : Pair) (e : ExitId) : Prop :=
        (look s.map.points p).kind = .exit ∧ exitAt s.map p = some e ∧ look sn.sources e = some b
      ∃ t, exec .selectionEnd s = .next t ∧ { t with engine := s.engine } = s
        ∧ (s.engine.abandonMark = true →
          StartsRun { s with engine := { s.engine with abandonCount := min 3 (s.engine.abandonCount + 1) } } t)
        ∧ (s.engine.abandonMark = false →
          ∃ table, t.engine = { s.engine with run := .publishing, newTable := some table }
            ∧ ∀ p,
              ((look s.map.points p).defined = false → look table p = ⟨.undefined, none, none, none⟩)
              ∧ ((look s.map.points p).defined = true →
                (look s.engine.pairs p = none → look table p = ⟨.noRoute, none, none, none⟩)
                ∧ ∀ b, look s.engine.pairs p = some b →
                  (∀ e, exitHere p b e → look table p = ⟨.exitHere, some b, none, some e⟩)
                  ∧ ((∀ e, ¬exitHere p b e) →
                    let old := look s.engine.table p
                    (∀ x, old.status = .routed → old.next = some x → near p b x →
                      look table p = ⟨.routed, some b, some x, none⟩)
                    ∧ ∀ x, (∀ y, old.status = .routed → old.next = some y → ¬near p b y) →
                      offers p b x b → (∀ y, y < x → ¬offers p b y b) →
                      look table p = ⟨.routed, some b, some x, none⟩)))

/-- Over a map that passes checks 2 and 3, the routes of a settled run all arrive: after selection and publication every
ROUTED point has a next aisle that people may walk along to a point with a better best pair and the same target exit,
which is a point of its own exit or another ROUTED one (R55, R57, R59, R60). -/
def Obligations.PublishedRoutesArrive : Prop :=
  ∀ s sn, RunSound s → RangesSound s → check2 s.map = none → check3 s.map = none →
    s.engine.run = .selecting → s.engine.snapshot = some sn → s.engine.changeMark = false → s.engine.abandonMark = false →
    ∃ t u, exec .selectionEnd s = .next t ∧ exec .publication t = .next u
      ∧ ∀ p, (routeOf u p).status = .routed →
        ∃ x e q b bq,
          (routeOf u p).next = some x ∧ (routeOf u p).target = some e ∧ (routeOf u p).best = some b
          ∧ (look sn.aisles x).usable = true
          ∧ walkTo (look s.map.aisles x) (look sn.aisles x).passage p = some q
          ∧ (routeOf u q).best = some bq ∧ bq.better b = true ∧ (routeOf u q).target = some e
          ∧ ((routeOf u q).status = .routed
            ∨ ((routeOf u q).status = .exitHere ∧ (look s.map.exits e).defined = true ∧ (look s.map.exits e).point = q))

/-- Publication replaces the table and its digest in one step, recomputes the displays, offers the ROUTES notice with its
counts and the abandon count, clears that count and the firm mark, and then starts a run where the pending flag is set and
rests otherwise (R47, R60 to R62). With no publication in progress nothing happens: the model's choice, log 5. -/
def Obligations.Publication : Prop :=
  ∀ s,
    (s.engine.run ≠ .publishing → exec .publication s = .next s)
    ∧ ∀ table, s.engine.run = .publishing → s.engine.newTable = some table →
      let full := withTargets s.map table
      let placed : State := { s with engine := { s.engine with table := full, digest := digestOf full } }
      let changed := countIndex 64 fun h => (desiredOf s h).isSome && desiredOf s h != some (displayFor placed h)
      let rested : Engine :=
        { s.engine with
          table := full, digest := digestOf full, abandonCount := 0, firmMark := false }
      ∃ t, exec .publication s = .next t
        ∧ Recomputed s t
        ∧ t.link =
          offerLink
            (.routes (countStatus full .routed) (countStatus full .exitHere) (countStatus full .noRoute)
              (countSmoke full) changed s.engine.abandonCount (digestOf full)) s.link
        ∧ (s.engine.pendingFlag = true → StartsRun { s with engine := rested } t)
        ∧ (s.engine.pendingFlag = false →
          t.engine =
            { rested with
              run := .idle, snapshot := none, pairs := Vector.replicate 240 none, sweep := 0, changeMark := false
              abandonMark := false, newTable := none })
        ∧ { withDisplays s t with engine := s.engine, link := s.link } = s

/-! ## Displays and the update queue -/

/-- The kind, arrow, script and phase of a head's display: Table 4.2 (R72), the usable arrow nearest to the direction of
the next aisle, then nearest to ahead, then the right-hand one (R73, R74), the kind map's script where it is defined and
fits the head, else 0 (R76, R78), and the best walk cost in units of PHASE_UNIT modulo 64 (R79). -/
def Obligations.DisplayFollowsRules : Prop :=
  ∀ s h,
    let d := displayFor s h
    let pl := placementOf s h
    let r := routeOf s pl.point
    let resting := s.mode = .setup ∨ s.mode = .validating
    let smoky := ∃ b, r.best = some b ∧ b.smoke ≠ 0
    let usable (k : ArrowId) : Prop :=
      (∃ a, (headOf s h).abilities = some a ∧ a.arrows.getLsbD k.val = true)
      ∧ (headOf s h).faultMask.arrows.getLsbD k.val = false
    let away (x y : Nat) : Nat := min ((x + 16 - y) % 16) ((y + 16 - x) % 16)
    (resting → d.kind = .standby)
    ∧ (¬resting → r.status = .exitHere → d.kind = .exitHere)
    ∧ (¬resting → r.status = .noRoute ∨ r.status = .undefined → d.kind = .noRoute)
    ∧ (¬resting → r.status = .routed → ¬smoky → d.kind = .route)
    ∧ (¬resting → r.status = .routed → smoky → d.kind = .routeSmoke)
    ∧ (d.kind ≠ .route → d.kind ≠ .routeSmoke → d.arrow = none ∧ d.phase = 0)
    ∧ (∀ b, d.kind = .route ∨ d.kind = .routeSmoke → r.best = some b →
        d.phase.val = b.walk / s.timing.phaseUnit % 64)
    ∧ (∀ x, d.kind = .route ∨ d.kind = .routeSmoke → r.next = some x →
        let a := look s.map.aisles x
        let leaving := if a.endA = pl.point then a.bearing.val else (a.bearing.val + 8) % 16
        let relative := (leaving + 16 - pl.facing.val) % 16
        ((∀ k, ¬usable k) → d.arrow = none)
        ∧ ((∃ k, usable k) →
          ∃ k, d.arrow = some k ∧ usable k
            ∧ ∀ j, usable j → j ≠ k →
              away relative (2 * k.val) < away relative (2 * j.val)
              ∨ (away relative (2 * k.val) = away relative (2 * j.val)
                ∧ (away (2 * k.val) 0 < away (2 * j.val) 0
                  ∨ (away (2 * k.val) 0 = away (2 * j.val) 0 ∧ 1 ≤ k.val ∧ k.val ≤ 3)))))
    ∧ (let n := look s.selector.kindMap (kindMapEntry d.kind (decide (s.mode = .alarm)))
      let capacity := match (headOf s h).abilities with
        | some a => a.capacity.toNat
        | none => 0
      let fits := ∃ steps, scriptOf s.selector n = some steps ∧ steps.length ≤ capacity
      (fits → d.script = n) ∧ (¬fits → d.script = 0))

/-- A new desired display reaches the update queue by R90: none where it is confirmed already, a new entry at the tail of
its section, or the entry changed in place, with its class raised to URGENT and moved to the tail of the URGENT section
where kind or arrow now differ from the confirmed display (R88 to R90). Other heads keep their entries and their order, and
the order of sections stands. After an acknowledged display an entry with that display is removed, one with a newer display
stays, and a desired display that differs joins again where the head has no entry (R93, R95). -/
def Obligations.QueueTakesDisplays : Prop :=
  (∀ (h : HeadId) (confirmed : Option Display) (d : Display) (q : List Entry), oneEach q → urgentFirst q →
      let urgent : Bool :=
        match confirmed with
        | some c => decide (c.kind ≠ d.kind ∨ c.arrow ≠ d.arrow)
        | none => true
      let q' := queueDisplay h confirmed d q
      let others (l : List Entry) := l.filter fun e => e.head != h
      let section_ (l : List Entry) (u : Bool) := l.filter fun e => e.urgent == u
      oneEach q' ∧ urgentFirst q' ∧ others q' = others q
      ∧ (confirmed = some d → q' = others q)
      ∧ (confirmed ≠ some d → entryOf q h = none →
          section_ q' urgent = section_ q urgent ++ [⟨h, d, urgent, false⟩] ∧ section_ q' (!urgent) = section_ q (!urgent))
      ∧ (∀ e, confirmed ≠ some d → entryOf q h = some e →
          (urgent = true → e.urgent = false →
            section_ q' true = section_ q true ++ [⟨h, d, true, e.held⟩] ∧ section_ q' false = others (section_ q false))
          ∧ (urgent = false ∨ e.urgent = true →
            q' = q.map fun x => if x.head = h then { x with display := d } else x)))
  ∧ (∀ h d desired q, oneEach q →
      (∀ e, entryOf q h = some e → e.display = d → queueAck h d desired q = q.filter fun x => x.head != h)
      ∧ (∀ e, entryOf q h = some e → e.display ≠ d → queueAck h d desired q = q)
      ∧ (entryOf q h = none → desired = none ∨ desired = some d → queueAck h d desired q = q)
      ∧ ∀ w, entryOf q h = none → desired = some w → w ≠ d → queueAck h d desired q = queueDisplay h (some d) w q)

/-! ## The sign bus -/

/-- BEAT and RELEASE ALL, slot 0 of a frame by the release-all mark, in a controller in SOLO or DUTY that has no
transaction in flight: held marks are cleared, the plan is built, the frame carries the next beat and the mode class,
the next beat rises by one modulo 256, and RELEASE ALL clears the mark (R91, R100, R102, R104, R116, R136). The frame
starts 200 ms after the one before, or at once after that; anything else changes nothing: the model's choices, logs 4
and 5. The plan: slot 0 RELEASE ALL or BEAT by the mark, slot 1 ENROL, slot 2 PARTNER or UPDATE by PAIR_EN, the i-th of
the n heads in service polled in slot 3 + floor(i × 97 / n), and every other slot UPDATE (R102, Table 6.3). -/
def Obligations.StartOfFrame : Prop :=
  (∀ s,
      let may := (s.pair.state = .solo ∨ s.pair.state = .duty) ∧ s.pair.isolating = false ∧ s.bus.inFlight = none
      let start := match s.bus.frame with
        | some f => max s.now (f.start + 200)
        | none => s.now
      let mark : Byte := if s.mode = .alarm then 1 else 0
      let heard : Heard := ⟨s.bus.nextBeat, decide (s.mode = .alarm)⟩
      let after (c : BusCommand) (hear : Device → Device) : State :=
        { s with
          now := start, queue := s.queue.map fun e => { e with held := false }
          bus :=
            { frame := some ⟨start, 0⟩, plan := some (buildPlan s), beat := s.bus.nextBeat, nextBeat := s.bus.nextBeat + 1
              contention := s.bus.contention, releaseAll := false, inFlight := none, line := some (commandFrame 0 c).bytes }
          devices := s.devices.map hear, heard := some heard }
      (may → s.bus.releaseAll = false →
        exec .beat s
            = .next (after (.beat s.bus.nextBeat mark) (hearBeat heard))
        ∧ exec .releaseAll s = .next s)
      ∧ (may → s.bus.releaseAll = true →
        exec .releaseAll s
            = .next (after (.releaseAll s.bus.nextBeat mark) (hearRelease heard))
        ∧ exec .beat s = .next s)
      ∧ (¬may → exec .beat s = .next s ∧ exec .releaseAll s = .next s))
  ∧ (∀ s,
      let serves (h : HeadId) : Bool :=
        (headOf s h).state == .joining || (headOf s h).state == .loading || (headOf s h).state == .serving
          || (headOf s h).state == .recovering
      let n := countIndex 64 serves
      let slotOf (h : HeadId) : Nat := 3 + countIndex 64 (fun k => serves k && decide (k < h)) * 97 / n
      look (buildPlan s) 0 = (if s.bus.releaseAll then .releaseAll else .beat)
      ∧ look (buildPlan s) 1 = .enrol
      ∧ look (buildPlan s) 2 = (if s.pair.enabled then .partner else .update)
      ∧ (∀ h, serves h = true → ∃ k : SlotId, k.val = slotOf h ∧ look (buildPlan s) k = .poll h)
      ∧ (∀ k : SlotId, 3 ≤ k.val → (∀ h, serves h = true → k.val ≠ slotOf h) → look (buildPlan s) k = .update))

/-- Slots 1 and 2 and the UPDATE and POLL slots, in a controller that may drive the bus, with no transaction in flight
and a plan that gives the slot its kind: INVITE with the contention flag (R105), the partner query with digest, mode and
beat (R106), DISPLAY of the first entry of a SERVING head that is not held (R92, R107), and what Table 6.4 gives a POLL
slot, for a LOADING head the first block of the library in script and block number that fits its capacity and is not
acknowledged, or the closing SCRIPT (R110); each is driven and in flight, and a slot with nothing to send lasts in
silence (R99 to R101, R103). That the bits of a step without a field are sent as 0 is the model's choice, log 46. Out of
turn nothing happens: log 4. -/
def Obligations.SlotsSend : Prop :=
  ∀ (s : State) (k : SlotId),
    let may := (s.pair.state = .solo ∨ s.pair.state = .duty ∨ s.pair.state = .yielding) ∧ s.pair.isolating = false
      ∧ s.bus.inFlight = none
    let begun (f : FrameTiming) (k : SlotId) : State :=
      { s with now := max s.now (f.start + 2 * k.val), bus := { s.bus with frame := some { f with slot := k }, line := none } }
    let sent (f : FrameTiming) (k : SlotId) (kind : SlotKind) (address : Byte) (h : Option HeadId) (c : BusCommand) : State :=
      { begun f k with
        bus :=
          { s.bus with
            frame := some { f with slot := k }
            inFlight := some ⟨k, kind, address, h, c⟩
            line := some (commandFrame address c).bytes }
        devices := s.devices.map (hearCommand address c) }
    (∀ f plan, may → s.bus.frame = some f → s.bus.plan = some plan →
      (look plan 1 = .enrol → exec .enrol s = .next (sent f 1 .enrol 0 none (.invite s.bus.contention)))
      ∧ (look plan 2 = .partner →
        exec .partnerSlot s = .next (sent f 2 .partner 126 none (.query s.engine.digest (modeCode s.mode) s.bus.beat)))
      ∧ (look plan k = .update →
        let eligible (e : Entry) : Prop := (headOf s e.head).state = .serving ∧ e.held = false
        ((∀ e ∈ s.queue, ¬eligible e) → exec (.updateSlot k) s = .next (begun f k))
        ∧ ∀ before e after, s.queue = before ++ e :: after → eligible e → (∀ x ∈ before, ¬eligible x) →
          exec (.updateSlot k) s
            = .next (sent f k .update (headAddress e.head) (some e.head) (.display e.display)))
      ∧ ∀ h, look plan k = .poll h →
        let r := headOf s h
        let sends (c : BusCommand) : Prop :=
          exec (.pollSlot k) s = .next (sent f k (.poll h) (headAddress h) (some h) c)
        (r.state = .absent ∨ r.state = .failed → exec (.pollSlot k) s = .next (begun f k))
        ∧ (r.state = .joining → sends (.assign (placementOf s h).serial))
        ∧ (r.state = .loading →
          let capacity := match r.abilities with | some a => a.capacity.toNat | none => 0
          let wanted (script block : Nat) (steps : List ScriptStep) : Prop :=
            ∃ (i : Fin 12) (all : List ScriptStep),
              script = i.val + 1 ∧ look s.selector.library i = some all ∧ all.length ≤ capacity
              ∧ ((block = 0 ∧ steps = all.take 12) ∨ (block = 1 ∧ 12 < all.length ∧ steps = all.drop 12))
              ∧ (script, block) ∉ r.loaded
          ((∀ script block steps, ¬wanted script block steps) → sends (.script s.selector.generation 0 0 []))
          ∧ ∀ script block steps, wanted script block steps →
            (∀ script' block' steps', wanted script' block' steps' →
              script < script' ∨ (script = script' ∧ block ≤ block')) →
            sends (.script s.selector.generation (natByte script) (natByte block) (steps.map stepCode)))
        ∧ (∀ d, r.state = .recovering → desiredOf s h = some d →
            sends (.resync (placementOf s h).serial (headAddress h) s.selector.generation d))
        ∧ (∀ e, r.state = .serving → entryOf s.queue h = some e → e.held = false → sends (.display e.display))
        ∧ (∀ e, r.state = .serving → entryOf s.queue h = some e → e.held = true → sends .poll)
        ∧ (r.state = .serving → entryOf s.queue h = none → r.testPending = true → sends .test)
        ∧ (r.state = .serving → entryOf s.queue h = none → r.testPending = false → sends .poll))
    ∧ (∀ plan, s.bus.plan = some plan →
      (look plan 1 ≠ .enrol → exec .enrol s = .next s) ∧ (look plan 2 ≠ .partner → exec .partnerSlot s = .next s)
      ∧ (look plan k ≠ .update → exec (.updateSlot k) s = .next s)
      ∧ ((∀ h, look plan k ≠ .poll h) → exec (.pollSlot k) s = .next s))
    ∧ (¬may ∨ s.bus.frame = none ∨ s.bus.plan = none →
        exec .enrol s = .next s ∧ exec .partnerSlot s = .next s ∧ exec (.updateSlot k) s = .next s
        ∧ exec (.pollSlot k) s = .next s)

/-- The bytes of a sign bus frame are address, kind, payload and CRC with its high byte first, and a frame is read back
from them (R173, R175). The class of a reply window: silent where the line stayed idle, valid for a first frame with a
correct CRC, the command's address and a kind and length that the command admits, and garbled otherwise (R100, R173): an
ACK of no bytes answers ASSIGN and SCRIPT alone, one of 3 bytes DISPLAY, POLL, RESYNC and TEST alone. That a REJECT
reason above 3 is OTHER is the model's choice, log 16, and so is that bits 1 to 6 of an ACK's first byte are not read,
log 38. -/
def Obligations.WindowClasses : Prop :=
  ∀ (address : Byte) (c : BusCommand) (f : BusFrame),
    f.bytes = f.address :: f.kind :: (f.payload ++ [f.crc.extractLsb' 8 8, f.crc.extractLsb' 0 8])
    ∧ (∀ bytes, BusFrame.ofBytes bytes = some f ↔ bytes = f.bytes)
    ∧ classify address c .idle = .silent ∧ classify address c .disturbed = .garbled
    ∧ (f.crc ≠ crc16 (f.address :: f.kind :: f.payload) ∨ f.address ≠ address →
        classify address c (.frame f) = .garbled)
    ∧ (f.crc = crc16 (f.address :: f.kind :: f.payload) → f.address = address →
      (∀ (level arrows capacity s3 s2 s1 s0 : Byte) (x : Bool),
        c = .invite x → f.kind = 0x83 → f.payload = [s3, s2, s1, s0, level, arrows, capacity] →
        classify address c (.frame f) = .valid (.announcement (s3 ++ s2 ++ s1 ++ s0) ⟨level, arrows, capacity⟩))
      ∧ (∀ (dh dl m p m' b' : Byte) (d' : Half),
        c = .query d' m' b' → f.kind = 0x84 → f.payload = [dh, dl, m, p] →
        classify address c (.frame f) = .valid (.partner (dh ++ dl) m p))
      ∧ ((∃ serial, c = .assign serial) ∨ (∃ g n b steps, c = .script g n b steps) → f.kind = 0x80 → f.payload = [] →
        classify address c (.frame f) = .valid .ack)
      ∧ (∀ first arrows g : Byte, c = .poll ∨ c = .test ∨ (∃ d, c = .display d) ∨ (∃ s a g d, c = .resync s a g d) →
        f.kind = 0x80 → f.payload = [first, arrows, g] →
        classify address c (.frame f)
          = .valid (.ackStatus ⟨⟨first.getLsbD 0, arrows⟩, if first.getLsbD 7 then none else some g⟩))
      ∧ (0x10 ≤ commandKind c → f.kind = 0x81 → f.payload = [] → classify address c (.frame f) = .valid .wait)
      ∧ (∀ reason : Byte, 0x10 ≤ commandKind c → f.kind = 0x82 → f.payload = [reason] →
        classify address c (.frame f)
          = .valid
            (.reject
              (if reason = 0 then .format else if reason = 1 then .scriptMissing else if reason = 2 then .noRoom
              else .other)))
      ∧ ((∀ r, classify address c (.frame f) ≠ .valid r) → classify address c (.frame f) = .garbled)
      ∧ ∀ r, classify address c (.frame f) = .valid r →
        (f.kind = 0x80 ∧ f.payload.length = 0 ∧ ((∃ serial, c = .assign serial) ∨ ∃ g n b steps, c = .script g n b steps))
        ∨ (f.kind = 0x80 ∧ f.payload.length = 3
          ∧ (c = .poll ∨ c = .test ∨ (∃ d, c = .display d) ∨ ∃ s a g d, c = .resync s a g d))
        ∨ (f.kind = 0x81 ∧ f.payload.length = 0 ∧ 0x10 ≤ commandKind c)
        ∨ (f.kind = 0x82 ∧ f.payload.length = 1 ∧ 0x10 ≤ commandKind c)
        ∨ (f.kind = 0x83 ∧ f.payload.length = 7 ∧ commandKind c = 0x03)
        ∨ (f.kind = 0x84 ∧ f.payload.length = 4 ∧ commandKind c = 0x04))

/-- The end of an INVITE (R105, R119 to R121, Table 7.3): the contention flag follows the class; a valid announcement with
abilities out of range is an enrol fault, noted once for a serial; a placed and enabled serial brings its record to
JOINING, renews the abilities of a JOINING one, and marks a FAILED one with a notice the first time; an unplaced serial
joins the stranger list or renews its entry there. -/
def Obligations.InviteOutcome : Prop :=
  ∀ (s : State) (tr : Transaction) (x : Bool) (w : Window),
    s.bus.inFlight = some tr → tr.command = .invite x →
    let class_ := classify tr.address tr.command w
    let bus : Bus := { s.bus with inFlight := none, contention := decide (class_ = .garbled) }
    let rest (t : State) : State := { t with devices := s.devices, link := s.link }
    ((∀ serial a, class_ ≠ .valid (.announcement serial a)) →
      exec (.transactionComplete w) s = .next { s with bus := bus })
    ∧ ∀ serial a, class_ = .valid (.announcement serial a) →
      let bad := ¬((a.level = 2 ∨ a.level = 3) ∧ 8 ≤ a.capacity.toNat ∧ a.capacity.toNat ≤ 64)
      let holds (h : HeadId) : Prop :=
        (placementOf s h).defined = true ∧ (placementOf s h).serial = serial
          ∧ ∀ k, k < h → (placementOf s k).defined = true → (placementOf s k).serial ≠ serial
      let unplaced := ∀ h, (placementOf s h).defined = true → (placementOf s h).serial ≠ serial
      ∃ t, exec (.transactionComplete w) s = .next t
        ∧ (bad → s.heads.lastFaulty = some serial → t.link = s.link ∧ rest t = { s with bus := bus })
        ∧ (bad → s.heads.lastFaulty ≠ some serial →
          rest t = { s with bus := bus, heads := { s.heads with lastFaulty := some serial } }
          ∧ (unplaced → t.link = offerLink (.head none serial none none .enrolFault 0 none (some a)) s.link)
          ∧ ∀ h, holds h →
            t.link =
              offerLink
                (.head (some h) serial (some (headOf s h).state) (some (headOf s h).state) .enrolFault
                  (headOf s h).faultCount (headOf s h).lastReject (some a)) s.link)
        ∧ (¬bad → unplaced →
          let old := s.heads.strangers
          let known := ∃ y ∈ old, y.serial = serial
          let full := 8 ≤ old.length
          let new := (if full then old.drop 1 else old) ++ [⟨serial, a⟩]
          (known →
            t.link = s.link
            ∧ rest t =
              { s with
                bus := bus
                heads :=
                  { s.heads with
                    strangers := old.map fun y => if y.serial = serial then { y with abilities := a } else y } })
          ∧ (¬known →
            t.link = offerLink (.stranger serial a new.length full) s.link
            ∧ rest t = { s with bus := bus, heads := { s.heads with strangers := new } }))
        ∧ ∀ h, ¬bad → holds h →
          let r := headOf s h
          let record (r' : Head) : State :=
            { s with bus := bus, heads := { s.heads with records := store s.heads.records h r' } }
          ((placementOf s h).enabled = false → t.link = s.link ∧ rest t = { s with bus := bus })
          ∧ ((placementOf s h).enabled = true →
            (r.state = .joining → t.link = s.link ∧ rest t = record { r with abilities := some a })
            ∧ (r.state = .failed →
              rest t = record { r with abilities := some a, announced := true }
              ∧ t.link =
                (if r.announced then s.link
                else
                  offerLink
                    (.head (some h) serial (some .failed) (some .failed) .announcedWhileFailed r.faultCount r.lastReject none)
                    s.link))
            ∧ (r.state ≠ .joining → r.state ≠ .failed →
              t.link = (if r.testPending then offerLink (.test h none) s.link else s.link)
              ∧ rest t =
                { record
                    { r with
                      state := .joining, abilities := some a, confirmed := none, generation := none
                      faultMask := ⟨false, 0⟩, loaded := [], waitCount := 0, announced := false, testPending := false } with
                  selector := { s.selector with desired := store s.selector.desired h none }
                  queue := s.queue.filter fun e => e.head != h }))

/-! ## Sign heads -/

/-- The end of an addressed command of the part's own slot. ASSIGN to a JOINING head: LOADING on ACK, ABSENT with its
counts kept on a failure (R118, R122). SCRIPT to a LOADING head: an acknowledged block joins the loading record, the
closing SCRIPT brings SERVING with its HEAD notice, a stale generation counts for nothing (R123). DISPLAY, POLL or TEST
to a SERVING head, or to one that has gone to LOADING meanwhile: the display is confirmed, the status taken, a pending
test reported, a stale generation brings LOADING, a WAIT to DISPLAY holds the entry (R93 to R95, R124, R129, R131).
RESYNC to a RECOVERING head: SERVING or LOADING by its generation on ACK, FAILED on a failure (R127). A WAIT raises the
wait count, and REJECT, no reply or a sixteenth WAIT in LOADING and SERVING brings RECOVERING with its HEAD notice
(R125, R126, R132). That a TEST notice comes before the HEAD notice is the model's reading, log 21, and so is the no
generation mark in its measured mask, log 13. With no transaction in flight nothing changes (log 5), and an outcome that
finds its head in a state that the rules do not pair with the command is disregarded (log 25). -/
def Obligations.AddressedOutcomes : Prop :=
  (∀ s h serial address w, Awaits s h (.assign serial) address → (headOf s h).state = .joining →
      ∃ t, exec (.transactionComplete w) s = .next t ∧ OnlyHead h s t ∧ t.bus.inFlight = none
        ∧ AssignRow h (classify address (.assign serial) w) s t)
  ∧ (∀ s h generation script block steps address w,
      Awaits s h (.script generation script block steps) address → (headOf s h).state = .loading →
      ∃ t, exec (.transactionComplete w) s = .next t ∧ OnlyHead h s t ∧ t.bus.inFlight = none
        ∧ ScriptRow h generation script block (classify address (.script generation script block steps) w) s t)
  ∧ (∀ s h c address w, Awaits s h c address → c = .poll ∨ c = .test ∨ (∃ d, c = .display d) →
      (headOf s h).state = .serving ∨ (headOf s h).state = .loading →
      ∃ t, exec (.transactionComplete w) s = .next t ∧ OnlyHead h s t ∧ t.bus.inFlight = none
        ∧ ((headOf s h).state = .serving → ServingRow h c false (classify address c w) s t)
        ∧ ((headOf s h).state = .loading → LoadingRow h c false (classify address c w) s t))
  ∧ (∀ s h serial a g d address w, Awaits s h (.resync serial a g d) address → (headOf s h).state = .recovering →
      ∃ t, exec (.transactionComplete w) s = .next t ∧ OnlyHead h s t ∧ t.bus.inFlight = none
        ∧ ResyncRow h (.resync serial a g d) (classify address (.resync serial a g d) w) s t)
  ∧ ((∀ s w, s.bus.inFlight = none → exec (.transactionComplete w) s = .next s)
    ∧ ∀ s h c address w, Awaits s h c address → 0x10 ≤ commandKind c →
      (headOf s h).state = .absent ∨ (headOf s h).state = .failed
        ∨ ((headOf s h).state = .joining ∧ commandKind c ≠ 0x10)
        ∨ ((headOf s h).state = .recovering ∧ commandKind c ≠ 0x13)
        ∨ ((headOf s h).state = .serving ∧ (commandKind c = 0x10 ∨ commandKind c = 0x11 ∨ commandKind c = 0x13))
        ∨ ((headOf s h).state = .loading ∧ (commandKind c = 0x10 ∨ commandKind c = 0x13)) →
      ∃ t, exec (.transactionComplete w) s = .next t
        ∧ { t with devices := s.devices } = { s with bus := { s.bus with inFlight := none } })

/-- TEST HEAD makes a head test pending on a SERVING head that has none, and RESTORE HEAD takes a FAILED head back to
JOINING with its counts cleared; the checks run index, state, and for TEST HEAD a test that is pending already (R118,
R128, R130). RESTART BUS in SETUP or GUARD, by a controller in SOLO or DUTY, empties the head manager and the update
queue and leaves beat 0 next with the release-all mark and the contention flag set; a transaction in flight stays (R96,
R115, R131). That its TEST notices follow in ascending head index is the model's choice, log 20. -/
def Obligations.HeadAndBusRequests : Prop :=
  (∀ (tag index : Byte) (s : State), Ready s →
      (64 ≤ index.toNat → Refuses (.testHead tag index) s .badIndex ∧ Refuses (.restoreHead tag index) s .badIndex)
      ∧ ∀ h : HeadId, index.toNat = h.val →
        let r := headOf s h
        let record (r' : Head) : State := { s with heads := { s.heads with records := store s.heads.records h r' } }
        (r.state ≠ .serving → Refuses (.testHead tag index) s .wrongMode)
        ∧ (r.state = .serving → r.testPending = true → Refuses (.testHead tag index) s .busy)
        ∧ (r.state = .serving → r.testPending = false →
          Serves (.testHead tag index) s .done [] [] fun t => { t with link := s.link } = record { r with testPending := true })
        ∧ (r.state ≠ .failed → Refuses (.restoreHead tag index) s .wrongMode)
        ∧ (r.state = .failed →
          Serves (.restoreHead tag index) s .done [] (if r.testPending then [.test h none] else []) fun t =>
            { t with link := s.link } =
              { record
                  { r with
                    state := .joining, confirmed := none, generation := none, faultMask := ⟨false, 0⟩, loaded := []
                    waitCount := 0, announced := false, testPending := false, faultCount := 0, lastReject := none } with
                selector := { s.selector with desired := store s.selector.desired h none }
                queue := s.queue.filter fun e => e.head != h }))
  ∧ (∀ tag s, Ready s →
      let may := (s.mode = .setup ∨ s.mode = .guard) ∧ (s.pair.state = .solo ∨ s.pair.state = .duty)
      (¬may → Refuses (.restartBus tag) s .wrongMode)
      ∧ (may →
        Serves (.restartBus tag) s .done []
          (((List.finRange 64).filter fun h => (headOf s h).testPending).map fun h => .test h none) fun t =>
            { t with link := s.link } =
              { s with
                heads := ⟨Vector.replicate 64 Head.reset, [], none⟩
                selector := { s.selector with desired := Vector.replicate 64 none }
                queue := []
                bus := { s.bus with nextBeat := 0, releaseAll := true, contention := true } }))

/-- What heads do at a BEAT, as the manual describes them: a head without a command at its address for ten BEATs drops
its address with its generation and display, one heard since keeps it, and a script restarts at step 0 where the script
clock is 0 (R85, R86, R114). What heads do otherwise: an acknowledged display is shown with its script running on where
script and phase stay, and else from the next script clock of 0 (R87, R111); a head first heard at an INVITE shows its
glyph by the last BEAT or RELEASE ALL, blinking in ALARM (R114), which is the model's reading, log 44. The part reads
none of it: log 28. -/
def Obligations.HeadsHearBeat : Prop :=
  (∀ (s : State) (dev : Device), dev ∈ s.devices → mayStartFrame s = true → s.bus.releaseAll = false →
    ∃ t dev', exec .beat s = .next t ∧ dev' ∈ t.devices ∧ dev'.serial = dev.serial
      ∧ (9 ≤ dev.beats → dev'.address = none ∧ (dev.address.isSome → dev'.generation = none ∧ dev'.display = none))
      ∧ (dev.beats < 9 →
        dev'.address = dev.address ∧ dev'.beats = dev.beats + 1 ∧ dev'.display = dev.display
        ∧ ∀ d steps, dev.display = some d → dev.awaiting = none → 1 ≤ d.script.val → dev.scripts = [(d.script.val, steps)] →
          (s.bus.nextBeat.toNat + d.phase.val) % 64 = 0 →
          dev'.playing = some (startScript steps)
          ∧ ∀ arrow glyph hold, steps.head? = some (.light arrow glyph hold) →
            dev'.playing = some ⟨0, hold, [], arrow, glyph⟩))
  ∧ (∀ s h d address w st dev, Awaits s h (.display d) address → dev ∈ s.devices → dev.address = some address →
      classify address (.display d) w = .valid (.ackStatus st) →
      ∃ t, exec (.transactionComplete w) s = .next t
        ∧ { dev with
            display := some d, awaiting := none
            playing := match dev.display with
              | some old => if old.script = d.script ∧ old.phase = d.phase then dev.playing else none
              | none => none } ∈ t.devices)
  ∧ (∀ s tr x w serial a, s.bus.inFlight = some tr → tr.command = .invite x →
      classify tr.address tr.command w = .valid (.announcement serial a) → (∀ dev ∈ s.devices, dev.serial ≠ serial) →
      ∃ t dev, exec (.transactionComplete w) s = .next t ∧ t.devices = s.devices ++ [dev]
        ∧ dev.serial = serial ∧ dev.address = none ∧ arrowShown dev = none
        ∧ glyphLevel dev = match s.heard with
          | some heard => if heard.alarm = true ∧ heard.beat.toNat % 2 = 1 then 0 else 15
          | none => 15)

/-! ## The pair of controllers -/

/-- A partner frame at an observing controller: in RESERVE the silence timer restarts with the claim wait of the role;
in CLAIMING the claim is withdrawn, HOLD released, with its PAIR notice; in ISOLATED nothing (R137 to R139, R149, Table
8.3). The partner exchange at the bus owner: a valid reply gives the partner report, a lost count of 0 and a mismatch
count that rises while the digests differ, its third rise being reported; anything else raises the lost count, its tenth
rise being reported, and sets the mismatch count to 0 (R106, R146 to R149). The partner query at an observing
controller: after what any partner frame does, the report with the pair state DUTY, the beat, the mismatch count, and
the reply with digest, mode and pair state on the HOLD output, with the slot count of its frame timing; a slot 2 without
a query sets the mismatch count to 0; a controller that drives the bus takes neither (R106, R143, R146, R147). That the
reply on HOLD is kept is the model's reading, log 10, and so is the answer to a query that ends a claim, log 39; that
report bytes without a meaning are stored is its choice, log 19, and when the slot is counted log 43. -/
def Obligations.PartnerExchange : Prop :=
  (∀ s,
      let roleWait := match s.pair.role with
        | .a => s.timing.takeoverWait
        | .b => 2 * s.timing.takeoverWait
      let wait := if s.pair.afterYield then 3 * s.timing.takeoverWait else roleWait
      (s.pair.state = .reserve →
        partnerFrame s =
          { s with pair := { s.pair with stuck := false, afterYield := false, silence := some (s.now + roleWait) } })
      ∧ (s.pair.state = .claiming →
        partnerFrame s =
          { s with
            pair :=
              { s.pair with
                state := .reserve, hold := false, guard := none, stuck := false, silence := some (s.now + wait) }
            link := offerLink (.pair .claimWithdrawn .claiming .reserve s.pair.role s.engine.digest s.pair.report) s.link })
      ∧ (s.pair.state = .isolated → partnerFrame s = s))
  ∧ (∀ s tr digest mode beat w, s.bus.inFlight = some tr → tr.command = .query digest mode beat →
      let class_ := classify tr.address tr.command w
      let bus : Bus := { s.bus with inFlight := none }
      (∀ d m p, class_ = .valid (.partner d m p) →
        exec (.transactionComplete w) s
          = .next
            { s with
              bus := bus
              pair :=
                { s.pair with
                  report := some ⟨d, m, p⟩, lost := 0
                  mismatch := if d = s.engine.digest then 0 else min 3 (s.pair.mismatch + 1) }
              link :=
                if d ≠ s.engine.digest ∧ s.pair.mismatch = 2 then
                  offerLink (.pair .digestMismatch s.pair.state s.pair.state s.pair.role s.engine.digest (some ⟨d, m, p⟩)) s.link
                else s.link })
      ∧ ((∀ d m p, class_ ≠ .valid (.partner d m p)) →
        exec (.transactionComplete w) s
          = .next
            { s with
              bus := bus, pair := { s.pair with lost := min 10 (s.pair.lost + 1), mismatch := 0 }
              link :=
                if s.pair.lost = 9 then
                  offerLink (.pair .partnerLost s.pair.state s.pair.state s.pair.role s.engine.digest s.pair.report) s.link
                else s.link }))
  ∧ (∀ (s : State) (digest : Half) (mode beat : Byte),
      (s.pair.state = .reserve ∨ s.pair.state = .claiming ∨ s.pair.state = .isolated →
        let u := partnerFrame s
        let report : PartnerReport := ⟨digest, mode, 3⟩
        exec (.partnerQueryObserved (commandFrame 126 (.query digest mode beat))) s
            = .next
              { u with
                bus := { s.bus with frame := timingNow s, beat := beat, nextBeat := beat + 1 }
                pair :=
                  { u.pair with
                    report := some report
                    mismatch := if digest = s.engine.digest then 0 else min 3 (s.pair.mismatch + 1)
                    holdReply :=
                      some
                        (sealFrame 126 0x84
                          (halfBytes s.engine.digest ++ [modeCode s.mode, pairStateCode u.pair.state])).bytes }
                link :=
                  if digest ≠ s.engine.digest ∧ s.pair.mismatch = 2 then
                    offerLink (.pair .digestMismatch u.pair.state u.pair.state u.pair.role s.engine.digest (some report)) u.link
                  else u.link }
        ∧ exec .partnerQueryMissed s
            = .next { s with bus := { s.bus with frame := timingNow s }, pair := { s.pair with mismatch := 0 } })
      ∧ (s.pair.state = .solo ∨ s.pair.state = .duty ∨ s.pair.state = .yielding →
        (∀ f, exec (.partnerQueryObserved f) s = .next s) ∧ exec .partnerQueryMissed s = .next s)
      ∧ ∀ f : BusFrame, f.crc ≠ crc16 (f.address :: f.kind :: f.payload) ∨ 0x80 ≤ f.kind.toNat →
        exec (.partnerQueryObserved f) s = .next s)

/-- The silence timer of RESERVE: with the partner's HOLD released a claim begins under guard 1 for 20 ms; with it
asserted the timer restarts and the first such expiry is reported (R138, R149). The claim guard of CLAIMING: with the
partner's HOLD released the controller enters DUTY, reports the takeover and starts a frame at once; with it asserted
role A goes on to guard 2, role B withdraws, and a second conflict gives the claim up (R139, R140, R149). The clock is
brought up to the expiry, and nothing happens where the timer does not run: the model's choices, log 3. That the first
frame's plan is built at entry into DUTY is its reading, log 40. -/
def Obligations.PairTimersExpire : Prop :=
  (∀ s,
      (s.pair.state ≠ .reserve ∨ s.pair.silence = none → ∀ held, exec (.pairSilenceExpiry held) s = .next s)
      ∧ ∀ time, s.pair.state = .reserve → s.pair.silence = some time →
        let now := max s.now time
        let wait :=
          if s.pair.afterYield then 3 * s.timing.takeoverWait
          else match s.pair.role with
            | .a => s.timing.takeoverWait
            | .b => 2 * s.timing.takeoverWait
        exec (.pairSilenceExpiry false) s
            = .next
              { s with
                now := now
                pair :=
                  { s.pair with
                    state := .claiming, hold := true, silence := none, stuck := false, afterYield := false
                    guard := some ⟨now + 20, false⟩ } }
        ∧ exec (.pairSilenceExpiry true) s
            = .next
              { s with
                now := now, pair := { s.pair with silence := some (now + wait), stuck := true }
                link :=
                  if s.pair.stuck then s.link
                  else offerLink (.pair .partnerStuck .reserve .reserve s.pair.role s.engine.digest s.pair.report) s.link })
  ∧ (∀ s,
      (s.pair.state ≠ .claiming ∨ s.pair.guard = none → ∀ held, exec (.claimGuardExpiry held) s = .next s)
      ∧ ∀ g, s.pair.state = .claiming → s.pair.guard = some g →
        let now := max s.now g.expiry
        let wait :=
          if s.pair.afterYield then 3 * s.timing.takeoverWait
          else match s.pair.role with
            | .a => s.timing.takeoverWait
            | .b => 2 * s.timing.takeoverWait
        let notice (cause : PairCause) (state : PairState) : Link :=
          offerLink (.pair cause .claiming state s.pair.role s.engine.digest s.pair.report) s.link
        let givenUp (cause : PairCause) : State :=
          { s with
            now := now
            pair := { s.pair with state := .reserve, hold := false, guard := none, silence := some (now + wait) }
            link := notice cause .reserve }
        exec (.claimGuardExpiry false) s
            = .next
              (sendBeat now
                { s with
                  now := now
                  pair := { s.pair with state := .duty, hold := true, guard := none, lost := 0, mismatch := 0 }
                  link := notice .takeover .duty })
        ∧ (g.second = true → exec (.claimGuardExpiry true) s = .next (givenUp .conflict))
        ∧ (g.second = false → s.pair.role = .b → exec (.claimGuardExpiry true) s = .next (givenUp .claimWithdrawn))
        ∧ (g.second = false → s.pair.role = .a →
          exec (.claimGuardExpiry true) s
            = .next { s with now := now, pair := { s.pair with guard := some ⟨now + 20, true⟩ } }))

/-- YIELD in DUTY enters YIELDING; ISOLATE leaves RESERVE and CLAIMING for ISOLATED at once with its PAIR notice, waits
in DUTY and YIELDING for the end of the slot in progress, and changes nothing in ISOLATED. An unpaired controller
answers NOT_PAIRED, and YIELD elsewhere WRONG_MODE (R101, R141, R142, R149). At the end of slot 99 in YIELDING HOLD is
released and RESERVE entered with the after-yield mark and 3 × TAKEOVER_WAIT of silence (R137, R141); at the end of the
slot in progress of an accepted ISOLATE the state is ISOLATED (R142). The clock is brought up to the frame's end, and
neither end is taken while a transaction is in flight, nor the first while an ISOLATE waits: the model's choices, logs
3, 5 and 10. -/
def Obligations.YieldAndIsolate : Prop :=
  (∀ tag s, Ready s →
      (s.pair.state = .duty →
        Serves (.yield tag) s .done [] [] fun t =>
          { t with link := s.link } = { s with pair := { s.pair with state := .yielding } })
      ∧ (s.pair.state = .solo → Refuses (.yield tag) s .notPaired ∧ Refuses (.isolate tag) s .notPaired)
      ∧ (s.pair.state ≠ .duty → s.pair.state ≠ .solo → Refuses (.yield tag) s .wrongMode)
      ∧ (s.pair.state = .isolated → Serves (.isolate tag) s .done [] [] (OnlyLink s))
      ∧ (s.pair.state = .duty ∨ s.pair.state = .yielding →
        Serves (.isolate tag) s .done [] [] fun t =>
          { t with link := s.link } = { s with pair := { s.pair with isolating := true } })
      ∧ (s.pair.state = .reserve ∨ s.pair.state = .claiming →
        Serves (.isolate tag) s .done []
          [.pair .isolated s.pair.state .isolated s.pair.role s.engine.digest s.pair.report] fun t =>
            { t with link := s.link } =
              { s with
                pair :=
                  { s.pair with state := .isolated, hold := false, silence := none, guard := none, isolating := false }
                bus := { s.bus with releaseAll := false, line := none } }))
  ∧ (∀ s,
      (s.pair.state = .yielding → s.pair.isolating = false → s.bus.inFlight = none →
        let now := match s.bus.frame with
          | some f => max s.now (f.start + 200)
          | none => s.now
        exec .yieldingEnd s
          = .next
            { s with
              now := now
              pair :=
                { s.pair with
                  state := .reserve, hold := false, afterYield := true, silence := some (now + 3 * s.timing.takeoverWait) }
              bus := { s.bus with releaseAll := false, line := none }
              link := offerLink (.pair .yielded .yielding .reserve s.pair.role s.engine.digest s.pair.report) s.link })
      ∧ (s.pair.state ≠ .yielding ∨ s.pair.isolating = true ∨ s.bus.inFlight.isSome → exec .yieldingEnd s = .next s)
      ∧ (s.pair.isolating = true → s.bus.inFlight = none →
        exec .isolateSlotEnd s
          = .next
            { s with
              pair := { s.pair with state := .isolated, hold := false, silence := none, guard := none, isolating := false }
              bus := { s.bus with releaseAll := false, line := none }
              link :=
                offerLink (.pair .isolated s.pair.state .isolated s.pair.role s.engine.digest s.pair.report) s.link })
      ∧ (s.pair.isolating = false ∨ s.bus.inFlight.isSome → exec .isolateSlotEnd s = .next s))

/-- An observed BEAT or RELEASE ALL gives the observer its frame timing, plan and beat, with the held marks cleared, and
RELEASE ALL empties the head manager and the queue as well (R91, R102, R143). A frame without its CRC, and any frame at
a controller that drives the bus, is not taken (R137). An observed INVITE is taken as the bus owner takes its own, after
what any partner frame does, with the slot count of the frame timing (R119 to R121, R143). That the plan of a RELEASE
ALL is built before the records are emptied is the model's reading, log 23, and so are the cleared held marks, log 24;
the order of the TEST notices, log 20, a mode class above 1, log 18, and when the slot is counted, log 43, are its
choices. -/
def Obligations.ObservedBroadcasts : Prop :=
  (∀ (s : State) (beat mark : Byte) (w : Window),
      (s.pair.state = .reserve ∨ s.pair.state = .claiming ∨ s.pair.state = .isolated →
        let u := partnerFrame s
        let heard : Heard := ⟨beat, decide (mark = 1)⟩
        let bus (plan : Vector SlotKind 100) : Bus :=
          { s.bus with frame := some ⟨s.now, 0⟩, plan := some plan, beat := beat, nextBeat := beat + 1 }
        exec (.observedBroadcast (commandFrame 0 (.beat beat mark)) w) s
            = .next
              { u with
                queue := s.queue.map fun e => { e with held := false }
                bus := bus (buildPlan s), devices := s.devices.map (hearBeat heard), heard := some heard }
        ∧ ∃ t, exec (.observedBroadcast (commandFrame 0 (.releaseAll beat mark)) w) s = .next t
          ∧ t.link
            = offerAll (((List.finRange 64).filter fun h => (headOf s h).testPending).map fun h => .test h none) u.link
          ∧ { t with link := u.link }
            = { u with
                heads := ⟨Vector.replicate 64 Head.reset, [], none⟩
                selector := { s.selector with desired := Vector.replicate 64 none }
                queue := []
                bus := bus (buildPlan s), devices := s.devices.map (hearRelease heard), heard := some heard })
      ∧ ∀ f : BusFrame,
        f.crc ≠ crc16 (f.address :: f.kind :: f.payload) ∨ s.pair.state = .solo ∨ s.pair.state = .duty
          ∨ s.pair.state = .yielding →
        exec (.observedBroadcast f w) s = .next s ∧ exec (.observedTransaction f w) s = .next s)
  ∧ (∀ (s : State) (x : Bool) (w : Window),
      s.pair.state = .reserve ∨ s.pair.state = .claiming ∨ s.pair.state = .isolated → s.bus.inFlight = none →
      exec (.observedBroadcast (commandFrame 0 (.invite x)) w) s
        = exec (.transactionComplete w)
          { partnerFrame s with
            bus := { s.bus with frame := timingNow s, inFlight := some ⟨1, .enrol, 0, none, .invite x⟩ } })

/-- An observed addressed transaction, at a controller that has its frame timing, for the head of a defined placement
and with no other serial, is taken by Table 8.4 for the observer's own record (R93, R143 to R145); before the observer
has frame timing, for an undefined placement, with another serial, or as a SCRIPT of more than 12 steps, it changes no
head record, display or queue (R143, R144, R173). Display fields with codes of no meaning are outside it: log 18. The
RESYNCED notice of a record in SERVING with its pending test kept (log 22), the queue left alone at an ASSIGN with the
same display (log 32) TEST before HEAD (log 21) and the no generation mark in a TEST notice's measured mask (log 13) are
the model's readings; frame timing from the controller's own frames (log 42) and when the slot is counted (log 43) its
choices. -/
def Obligations.ObservedTransactions : Prop :=
  (∀ (s : State) (h : HeadId) (c : BusCommand) (w : Window) (timing : FrameTiming),
      s.pair.state = .reserve ∨ s.pair.state = .claiming ∨ s.pair.state = .isolated →
      s.bus.frame = some timing → (placementOf s h).defined = true →
      0x10 ≤ commandKind c → (∀ g n b steps, c = .script g n b steps → steps.length ≤ 12) →
      (∀ serial, c = .assign serial → serial = (placementOf s h).serial) →
      (∀ serial a g d, c = .resync serial a g d → serial = (placementOf s h).serial) →
      let slot : SlotId := Fin.ofNat 100 (min 99 ((s.now - timing.start) / 2))
      let u : State := { partnerFrame s with bus := { s.bus with frame := some { timing with slot := slot } } }
      let class_ := classify (headAddress h) c w
      let display := c = .poll ∨ c = .test ∨ ∃ d, c = .display d
      let state := (headOf s h).state
      ∃ t, exec (.observedTransaction (commandFrame (headAddress h) c) w) s = .next t ∧ OnlyHead h u t
        ∧ t.bus.inFlight = s.bus.inFlight
        ∧ (state = .absent ∨ state = .failed ∨ (state = .joining ∧ commandKind c ≠ 0x10) →
            headOf t h = headOf s h ∧ t.link = u.link ∧ SameDisplay h u t)
        ∧ (∀ serial, c = .assign serial → state = .joining → AssignRow h class_ u t)
        ∧ (∀ g n b steps, c = .script g n b steps → state = .loading → ScriptRow h g n b class_ u t)
        ∧ (display → state = .serving → ServingRow h c true class_ u t)
        ∧ (display → state = .loading → LoadingRow h c true class_ u t)
        ∧ (∀ serial a g d, c = .resync serial a g d → state = .recovering ∨ state = .loading ∨ state = .serving →
            ResyncRow h c class_ u t)
        ∧ ((∃ serial, c = .assign serial) → state = .loading ∨ state = .serving ∨ state = .recovering →
            ObservedRow h c class_ u t)
        ∧ ((∃ g n b steps, c = .script g n b steps) → state = .serving ∨ state = .recovering → ObservedRow h c class_ u t)
        ∧ (display → state = .recovering → ObservedRow h c class_ u t))
  ∧ (∀ (s : State) (h : HeadId) (c : BusCommand) (w : Window),
      s.pair.state = .reserve ∨ s.pair.state = .claiming ∨ s.pair.state = .isolated →
      s.bus.frame = none ∨ (placementOf s h).defined = false
        ∨ (∃ serial, c = .assign serial ∧ serial ≠ (placementOf s h).serial)
        ∨ (∃ serial a g d, c = .resync serial a g d ∧ serial ≠ (placementOf s h).serial)
        ∨ (∃ g n b steps, c = .script g n b steps ∧ 13 ≤ steps.length) →
      ∃ t, exec (.observedTransaction (commandFrame (headAddress h) c) w) s = .next t
        ∧ { t with devices := s.devices } = { partnerFrame s with bus := { s.bus with frame := timingNow s } })

/-! ## Queries -/

/-- The queries answer the layouts of Table 11.4 in every mode and change nothing: GET STATUS its 41 bytes, the failure
bytes 0 where the last validation did not fail (R166), GET POINT, GET ZONE and GET EXIT their records (R13, R22, R39,
R48), GET HEAD and GET STRANGERS theirs (R98, R133); an index out of range is BAD_INDEX. The model's readings: the
notice loss mark in the link flags alone (log 41), zeros for the absent fields of a route (log 14), and the no
generation mark of GET HEAD's fault mask set where the record has no loaded generation (R171, log 13). That 0 POLL slots
are reported before the first plan is its choice, log 8. So it is that the bits without a field of the straps byte and
of a fault mask are 0, log 47. -/
def Obligations.QueriesReport : Prop :=
  (∀ tag s, Ready s →
      ∃ result straps polls : Byte, ∃ failure : List Byte,
        Serves (.getStatus tag) s .done
          ([flagCode s.map.validated, result] ++ failure ++ halfBytes s.engine.digest
            ++ [runStateCode s.engine.run, natByte s.engine.abandonCount, flagCode s.engine.pendingFlag,
              natByte (s.queue.countP fun e => e.urgent), natByte (s.queue.countP fun e => !e.urgent), s.selector.generation,
              s.bus.beat, polls, straps]
            ++ (match s.pair.report with | some r => halfBytes r.digest ++ [r.mode, r.state] | none => [0, 0, 0xFF, 0xFF])
            ++ [natByte s.pair.mismatch, natByte s.pair.lost, natByte s.link.notices.length, s.link.filter]
            ++ natHalf s.timing.confirmTime ++ natHalf s.timing.clearHold ++ natHalf s.timing.silenceTime
            ++ natHalf (if s.timing.autoAlarm then 1 else 0) ++ natHalf s.timing.hystAbs ++ natHalf s.timing.hystPct
            ++ natHalf s.timing.phaseUnit ++ natHalf s.timing.takeoverWait) [] (OnlyLink s)
        ∧ failure.length = 4
        ∧ straps.toNat = s.link.speed.toNat + (if s.pair.enabled then 4 else 0) + (if s.pair.role = .b then 8 else 0)
        ∧ (s.bus.plan = none → polls = 0)
        ∧ (∀ plan, s.bus.plan = some plan → polls.toNat = countIndex 100 fun k => decide (∃ h, look plan k = .poll h))
        ∧ (match s.map.lastValidation with
          | .none => result = 0 ∧ failure = [0, 0, 0, 0]
          | .running => result = 1 ∧ failure = [0, 0, 0, 0]
          | .passed => result = 2 ∧ failure = [0, 0, 0, 0]
          | .failed f => result = 3 ∧ failure = [natByte f.check, failTableCode f.table] ++ natHalf f.index
          | .cancelled => result = 4 ∧ failure = [0, 0, 0, 0]))
  ∧ (∀ (tag index : Byte) (s : State), Ready s →
      (240 ≤ index.toNat → Refuses (.getPoint tag index) s .badIndex)
      ∧ (64 ≤ index.toNat → Refuses (.getZone tag index) s .badIndex)
      ∧ (24 ≤ index.toNat → Refuses (.getExit tag index) s .badIndex)
      ∧ (∀ p : PointId, index.toNat = p.val →
        let pt := look s.map.points p
        let r := routeOf s p
        Serves (.getPoint tag index) s .done
          ([flagCode pt.defined, if pt.kind = .exit then 1 else 0, match pt.zone with | some z => natByte z.val | none => 0xFF,
              match r.status with | .undefined => 0 | .noRoute => 1 | .routed => 2 | .exitHere => 3]
            ++ natWord ((r.best.map Pair.smoke).getD 0) ++ natWord ((r.best.map Pair.walk).getD 0)
            ++ natHalf ((r.next.map Fin.val).getD 0) ++ [natByte ((r.target.map Fin.val).getD 0)]) [] (OnlyLink s))
      ∧ (∀ z : ZoneId, index.toNat = z.val →
        let d := look s.map.zones z
        let r := zoneOf s z
        let timer (t : Option Nat) : List Byte := match t with | some e => natHalf ((e - s.now + 99) / 100) | none => [0xFF, 0xFF]
        Serves (.getZone tag index) s .done
          ([flagCode d.defined, natByte d.suspect, natByte d.smoke, flagCode d.supervised, zoneStateCode r.state]
            ++ (match r.lastReading with | some l => [0, l] | none => [0xFF, 0xFF])
            ++ timer r.confirm ++ timer r.clearHold ++ timer r.silence) [] (OnlyLink s))
      ∧ ∀ e : ExitId, index.toNat = e.val →
        let d := look s.map.exits e
        let r := exitOf s e
        Serves (.getExit tag index) s .done
          ([flagCode d.defined, natByte d.point.val] ++ natHalf d.baseBias
            ++ (match d.contact with | some c => [natByte c.row.val, natByte c.column.val] | none => [0xFF, 0xFF])
            ++ [overrideCode r.override] ++ natHalf r.bias ++ [contactCode r.contact, flagCode r.available]) [] (OnlyLink s))
  ∧ (∀ (tag index : Byte) (s : State), Ready s →
      (64 ≤ index.toNat → Refuses (.getHead tag index) s .badIndex)
      ∧ (∀ h : HeadId, index.toNat = h.val →
        let pl := placementOf s h
        let r := headOf s h
        let shown (d : Option Display) : List Byte := match d with
          | some d => [displayKindCode d.kind, match d.arrow with | some k => natByte k.val | none => 0xFF,
            natByte d.script.val, natByte d.phase.val]
          | none => [0, 0, 0, 0]
        ∃ flags position : Byte,
          Serves (.getHead tag index) s .done
            ([flagCode pl.defined] ++ serialBytes pl.serial ++ [natByte pl.point.val, natByte pl.facing.val,
                flagCode pl.enabled, headStateCode r.state]
              ++ (match r.abilities with | some a => [a.level, a.arrows, a.capacity] | none => [0, 0, 0])
              ++ [(if r.generation.isNone then 0x80 else 0) ||| flagCode r.faultMask.glyph, r.faultMask.arrows, flags,
                r.generation.getD 0, natByte r.loaded.length,
                natByte r.waitCount] ++ natHalf r.faultCount ++ [rejectCode r.lastReject]
              ++ shown r.confirmed ++ shown (desiredOf s h) ++ [position]) [] (OnlyLink s)
          ∧ flags.getLsbD 0 = r.generation.isNone ∧ flags.getLsbD 1 = r.announced ∧ flags.getLsbD 2 = r.testPending
          ∧ flags.getLsbD 3 = (entryOf s.queue h).isSome
          ∧ flags.getLsbD 4 = (entryOf s.queue h).any (fun e => e.held)
          ∧ flags.getLsbD 5 = (entryOf s.queue h).any (fun e => e.urgent)
          ∧ flags.getLsbD 6 = r.confirmed.isSome ∧ flags.getLsbD 7 = (desiredOf s h).isSome
          ∧ ((∀ e ∈ s.queue, e.head ≠ h) → position = 0)
          ∧ ∀ before e after, s.queue = before ++ e :: after → e.head = h → (∀ x ∈ before, x.head ≠ h) →
            position = natByte (before.length + 1))
      ∧ Serves (.getStrangers tag) s .done
        ([natByte s.heads.strangers.length]
          ++ (s.heads.strangers.flatMap fun x =>
            serialBytes x.serial ++ [x.abilities.level, x.abilities.arrows, x.abilities.capacity])
          ++ [flagCode s.heads.lastFaulty.isSome] ++ serialBytes (s.heads.lastFaulty.getD 0)) [] (OnlyLink s))

/-! ## Invariants that every step keeps -/

/-- Every step keeps the limits and the rest positions of the panel link (R161, R163, R167, R169). -/
def Obligations.StepKeepsLink : Prop := ∀ s t, LinkSound s → step s = .next t → LinkSound t

/-- Every step keeps the desired displays with the head states and with their inputs, and the update queue in order with
one entry a head for the display it wants (R71, R80, R88, R98). -/
def Obligations.StepKeepsDisplays : Prop := ∀ s t, DisplaySound s → step s = .next t → DisplaySound t

/-- Every step keeps the digest with the table, the engine at rest outside GUARD and ALARM, and every working pair of a run
the cost of a route of its snapshot (R46, R47, R54, R55, R67, R70). -/
def Obligations.StepKeepsEngine : Prop :=
  ∀ s t, EngineSound s ∧ RunSound s → step s = .next t → EngineSound t ∧ RunSound t

/-- Every step keeps the zone timers in their states and every defined exit's availability as Table 2.3 gives it (R22,
R28 to R30, R39, R40). -/
def Obligations.StepKeepsZonesAndExits : Prop :=
  ∀ s t, ZonesSound s ∧ ExitsSound s → step s = .next t → ZonesSound t ∧ ExitsSound t

/-- Every step keeps the head records in their limits, with no head in service without its placement (R8, R10, R121, R125,
R131), and the pair unit to Table 8.2: HOLD, silence timer and guard go with the pair state, and a controller that may not
drive the bus holds no release-all mark (R101, R136, R147, R148). -/
def Obligations.StepKeepsHeadsAndPair : Prop :=
  (∀ s t, HeadsSound s → step s = .next t → HeadsSound t)
  ∧ (∀ s t, PairSound s → step s = .next t → PairSound t)

/-- Every step keeps every table value and setting in its range, and routes to a validated map (R3, R6, R7, R11, R20, R35,
R42, R82, R156). -/
def Obligations.StepKeepsRanges : Prop :=
  ∀ s t, RangesSound s ∧ ModeSound s → step s = .next t → RangesSound t ∧ ModeSound t
end

