-- ==== Sys2Proof/Laws/State.lean ====
section
/-! SUPPORT. What each named update of the state leaves in every field: one lemma for each field. -/

namespace Sys2Proof.Machine

@[simp] theorem reachTime_map (t : Nat) (s : State) : (reachTime t s).map = s.map := rfl
@[simp] theorem reachTime_zones (t : Nat) (s : State) : (reachTime t s).zones = s.zones := rfl
@[simp] theorem reachTime_alarmRequests (t : Nat) (s : State) : (reachTime t s).alarmRequests = s.alarmRequests := rfl
@[simp] theorem reachTime_scanner (t : Nat) (s : State) : (reachTime t s).scanner = s.scanner := rfl
@[simp] theorem reachTime_exits (t : Nat) (s : State) : (reachTime t s).exits = s.exits := rfl
@[simp] theorem reachTime_engine (t : Nat) (s : State) : (reachTime t s).engine = s.engine := rfl
@[simp] theorem reachTime_selector (t : Nat) (s : State) : (reachTime t s).selector = s.selector := rfl
@[simp] theorem reachTime_queue (t : Nat) (s : State) : (reachTime t s).queue = s.queue := rfl
@[simp] theorem reachTime_bus (t : Nat) (s : State) : (reachTime t s).bus = s.bus := rfl
@[simp] theorem reachTime_heads (t : Nat) (s : State) : (reachTime t s).heads = s.heads := rfl
@[simp] theorem reachTime_pair (t : Nat) (s : State) : (reachTime t s).pair = s.pair := rfl
@[simp] theorem reachTime_mode (t : Nat) (s : State) : (reachTime t s).mode = s.mode := rfl
@[simp] theorem reachTime_timing (t : Nat) (s : State) : (reachTime t s).timing = s.timing := rfl
@[simp] theorem reachTime_link (t : Nat) (s : State) : (reachTime t s).link = s.link := rfl
@[simp] theorem reachTime_devices (t : Nat) (s : State) : (reachTime t s).devices = s.devices := rfl
@[simp] theorem reachTime_heard (t : Nat) (s : State) : (reachTime t s).heard = s.heard := rfl
@[simp] theorem reachTime_now (t : Nat) (s : State) : (reachTime t s).now = max s.now t := rfl
@[simp] theorem reachTime_pending (t : Nat) (s : State) : (reachTime t s).pending = s.pending := rfl

@[simp] theorem setHead_map (h : HeadId) (r : Head) (s : State) : (setHead h r s).map = s.map := rfl
@[simp] theorem setHead_zones (h : HeadId) (r : Head) (s : State) : (setHead h r s).zones = s.zones := rfl
@[simp] theorem setHead_alarmRequests (h : HeadId) (r : Head) (s : State) : (setHead h r s).alarmRequests = s.alarmRequests := rfl
@[simp] theorem setHead_scanner (h : HeadId) (r : Head) (s : State) : (setHead h r s).scanner = s.scanner := rfl
@[simp] theorem setHead_exits (h : HeadId) (r : Head) (s : State) : (setHead h r s).exits = s.exits := rfl
@[simp] theorem setHead_engine (h : HeadId) (r : Head) (s : State) : (setHead h r s).engine = s.engine := rfl
@[simp] theorem setHead_selector (h : HeadId) (r : Head) (s : State) : (setHead h r s).selector = s.selector := rfl
@[simp] theorem setHead_queue (h : HeadId) (r : Head) (s : State) : (setHead h r s).queue = s.queue := rfl
@[simp] theorem setHead_bus (h : HeadId) (r : Head) (s : State) : (setHead h r s).bus = s.bus := rfl
@[simp] theorem setHead_heads (h : HeadId) (r : Head) (s : State) : (setHead h r s).heads = { s.heads with records := store s.heads.records h r } := rfl
@[simp] theorem setHead_pair (h : HeadId) (r : Head) (s : State) : (setHead h r s).pair = s.pair := rfl
@[simp] theorem setHead_mode (h : HeadId) (r : Head) (s : State) : (setHead h r s).mode = s.mode := rfl
@[simp] theorem setHead_timing (h : HeadId) (r : Head) (s : State) : (setHead h r s).timing = s.timing := rfl
@[simp] theorem setHead_link (h : HeadId) (r : Head) (s : State) : (setHead h r s).link = s.link := rfl
@[simp] theorem setHead_devices (h : HeadId) (r : Head) (s : State) : (setHead h r s).devices = s.devices := rfl
@[simp] theorem setHead_heard (h : HeadId) (r : Head) (s : State) : (setHead h r s).heard = s.heard := rfl
@[simp] theorem setHead_now (h : HeadId) (r : Head) (s : State) : (setHead h r s).now = s.now := rfl
@[simp] theorem setHead_pending (h : HeadId) (r : Head) (s : State) : (setHead h r s).pending = s.pending := rfl

@[simp] theorem setZoneRt_map (z : ZoneId) (r : ZoneRt) (s : State) : (setZoneRt z r s).map = s.map := rfl
@[simp] theorem setZoneRt_zones (z : ZoneId) (r : ZoneRt) (s : State) : (setZoneRt z r s).zones = store s.zones z r := rfl
@[simp] theorem setZoneRt_alarmRequests (z : ZoneId) (r : ZoneRt) (s : State) : (setZoneRt z r s).alarmRequests = s.alarmRequests := rfl
@[simp] theorem setZoneRt_scanner (z : ZoneId) (r : ZoneRt) (s : State) : (setZoneRt z r s).scanner = s.scanner := rfl
@[simp] theorem setZoneRt_exits (z : ZoneId) (r : ZoneRt) (s : State) : (setZoneRt z r s).exits = s.exits := rfl
@[simp] theorem setZoneRt_engine (z : ZoneId) (r : ZoneRt) (s : State) : (setZoneRt z r s).engine = s.engine := rfl
@[simp] theorem setZoneRt_selector (z : ZoneId) (r : ZoneRt) (s : State) : (setZoneRt z r s).selector = s.selector := rfl
@[simp] theorem setZoneRt_queue (z : ZoneId) (r : ZoneRt) (s : State) : (setZoneRt z r s).queue = s.queue := rfl
@[simp] theorem setZoneRt_bus (z : ZoneId) (r : ZoneRt) (s : State) : (setZoneRt z r s).bus = s.bus := rfl
@[simp] theorem setZoneRt_heads (z : ZoneId) (r : ZoneRt) (s : State) : (setZoneRt z r s).heads = s.heads := rfl
@[simp] theorem setZoneRt_pair (z : ZoneId) (r : ZoneRt) (s : State) : (setZoneRt z r s).pair = s.pair := rfl
@[simp] theorem setZoneRt_mode (z : ZoneId) (r : ZoneRt) (s : State) : (setZoneRt z r s).mode = s.mode := rfl
@[simp] theorem setZoneRt_timing (z : ZoneId) (r : ZoneRt) (s : State) : (setZoneRt z r s).timing = s.timing := rfl
@[simp] theorem setZoneRt_link (z : ZoneId) (r : ZoneRt) (s : State) : (setZoneRt z r s).link = s.link := rfl
@[simp] theorem setZoneRt_devices (z : ZoneId) (r : ZoneRt) (s : State) : (setZoneRt z r s).devices = s.devices := rfl
@[simp] theorem setZoneRt_heard (z : ZoneId) (r : ZoneRt) (s : State) : (setZoneRt z r s).heard = s.heard := rfl
@[simp] theorem setZoneRt_now (z : ZoneId) (r : ZoneRt) (s : State) : (setZoneRt z r s).now = s.now := rfl
@[simp] theorem setZoneRt_pending (z : ZoneId) (r : ZoneRt) (s : State) : (setZoneRt z r s).pending = s.pending := rfl

@[simp] theorem setExitRt_map (e : ExitId) (r : ExitRt) (s : State) : (setExitRt e r s).map = s.map := rfl
@[simp] theorem setExitRt_zones (e : ExitId) (r : ExitRt) (s : State) : (setExitRt e r s).zones = s.zones := rfl
@[simp] theorem setExitRt_alarmRequests (e : ExitId) (r : ExitRt) (s : State) : (setExitRt e r s).alarmRequests = s.alarmRequests := rfl
@[simp] theorem setExitRt_scanner (e : ExitId) (r : ExitRt) (s : State) : (setExitRt e r s).scanner = s.scanner := rfl
@[simp] theorem setExitRt_exits (e : ExitId) (r : ExitRt) (s : State) : (setExitRt e r s).exits = store s.exits e r := rfl
@[simp] theorem setExitRt_engine (e : ExitId) (r : ExitRt) (s : State) : (setExitRt e r s).engine = s.engine := rfl
@[simp] theorem setExitRt_selector (e : ExitId) (r : ExitRt) (s : State) : (setExitRt e r s).selector = s.selector := rfl
@[simp] theorem setExitRt_queue (e : ExitId) (r : ExitRt) (s : State) : (setExitRt e r s).queue = s.queue := rfl
@[simp] theorem setExitRt_bus (e : ExitId) (r : ExitRt) (s : State) : (setExitRt e r s).bus = s.bus := rfl
@[simp] theorem setExitRt_heads (e : ExitId) (r : ExitRt) (s : State) : (setExitRt e r s).heads = s.heads := rfl
@[simp] theorem setExitRt_pair (e : ExitId) (r : ExitRt) (s : State) : (setExitRt e r s).pair = s.pair := rfl
@[simp] theorem setExitRt_mode (e : ExitId) (r : ExitRt) (s : State) : (setExitRt e r s).mode = s.mode := rfl
@[simp] theorem setExitRt_timing (e : ExitId) (r : ExitRt) (s : State) : (setExitRt e r s).timing = s.timing := rfl
@[simp] theorem setExitRt_link (e : ExitId) (r : ExitRt) (s : State) : (setExitRt e r s).link = s.link := rfl
@[simp] theorem setExitRt_devices (e : ExitId) (r : ExitRt) (s : State) : (setExitRt e r s).devices = s.devices := rfl
@[simp] theorem setExitRt_heard (e : ExitId) (r : ExitRt) (s : State) : (setExitRt e r s).heard = s.heard := rfl
@[simp] theorem setExitRt_now (e : ExitId) (r : ExitRt) (s : State) : (setExitRt e r s).now = s.now := rfl
@[simp] theorem setExitRt_pending (e : ExitId) (r : ExitRt) (s : State) : (setExitRt e r s).pending = s.pending := rfl

@[simp] theorem setDesired_map (h : HeadId) (d : Option Display) (s : State) : (setDesired h d s).map = s.map := rfl
@[simp] theorem setDesired_zones (h : HeadId) (d : Option Display) (s : State) : (setDesired h d s).zones = s.zones := rfl
@[simp] theorem setDesired_alarmRequests (h : HeadId) (d : Option Display) (s : State) : (setDesired h d s).alarmRequests = s.alarmRequests := rfl
@[simp] theorem setDesired_scanner (h : HeadId) (d : Option Display) (s : State) : (setDesired h d s).scanner = s.scanner := rfl
@[simp] theorem setDesired_exits (h : HeadId) (d : Option Display) (s : State) : (setDesired h d s).exits = s.exits := rfl
@[simp] theorem setDesired_engine (h : HeadId) (d : Option Display) (s : State) : (setDesired h d s).engine = s.engine := rfl
@[simp] theorem setDesired_selector (h : HeadId) (d : Option Display) (s : State) : (setDesired h d s).selector = { s.selector with desired := store s.selector.desired h d } := rfl
@[simp] theorem setDesired_queue (h : HeadId) (d : Option Display) (s : State) : (setDesired h d s).queue = s.queue := rfl
@[simp] theorem setDesired_bus (h : HeadId) (d : Option Display) (s : State) : (setDesired h d s).bus = s.bus := rfl
@[simp] theorem setDesired_heads (h : HeadId) (d : Option Display) (s : State) : (setDesired h d s).heads = s.heads := rfl
@[simp] theorem setDesired_pair (h : HeadId) (d : Option Display) (s : State) : (setDesired h d s).pair = s.pair := rfl
@[simp] theorem setDesired_mode (h : HeadId) (d : Option Display) (s : State) : (setDesired h d s).mode = s.mode := rfl
@[simp] theorem setDesired_timing (h : HeadId) (d : Option Display) (s : State) : (setDesired h d s).timing = s.timing := rfl
@[simp] theorem setDesired_link (h : HeadId) (d : Option Display) (s : State) : (setDesired h d s).link = s.link := rfl
@[simp] theorem setDesired_devices (h : HeadId) (d : Option Display) (s : State) : (setDesired h d s).devices = s.devices := rfl
@[simp] theorem setDesired_heard (h : HeadId) (d : Option Display) (s : State) : (setDesired h d s).heard = s.heard := rfl
@[simp] theorem setDesired_now (h : HeadId) (d : Option Display) (s : State) : (setDesired h d s).now = s.now := rfl
@[simp] theorem setDesired_pending (h : HeadId) (d : Option Display) (s : State) : (setDesired h d s).pending = s.pending := rfl

@[simp] theorem offer_map (n : Notice) (s : State) : (offer n s).map = s.map := rfl
@[simp] theorem offer_zones (n : Notice) (s : State) : (offer n s).zones = s.zones := rfl
@[simp] theorem offer_alarmRequests (n : Notice) (s : State) : (offer n s).alarmRequests = s.alarmRequests := rfl
@[simp] theorem offer_scanner (n : Notice) (s : State) : (offer n s).scanner = s.scanner := rfl
@[simp] theorem offer_exits (n : Notice) (s : State) : (offer n s).exits = s.exits := rfl
@[simp] theorem offer_engine (n : Notice) (s : State) : (offer n s).engine = s.engine := rfl
@[simp] theorem offer_selector (n : Notice) (s : State) : (offer n s).selector = s.selector := rfl
@[simp] theorem offer_queue (n : Notice) (s : State) : (offer n s).queue = s.queue := rfl
@[simp] theorem offer_bus (n : Notice) (s : State) : (offer n s).bus = s.bus := rfl
@[simp] theorem offer_heads (n : Notice) (s : State) : (offer n s).heads = s.heads := rfl
@[simp] theorem offer_pair (n : Notice) (s : State) : (offer n s).pair = s.pair := rfl
@[simp] theorem offer_mode (n : Notice) (s : State) : (offer n s).mode = s.mode := rfl
@[simp] theorem offer_timing (n : Notice) (s : State) : (offer n s).timing = s.timing := rfl
@[simp] theorem offer_link (n : Notice) (s : State) : (offer n s).link = offerLink n s.link := rfl
@[simp] theorem offer_devices (n : Notice) (s : State) : (offer n s).devices = s.devices := rfl
@[simp] theorem offer_heard (n : Notice) (s : State) : (offer n s).heard = s.heard := rfl
@[simp] theorem offer_now (n : Notice) (s : State) : (offer n s).now = s.now := rfl
@[simp] theorem offer_pending (n : Notice) (s : State) : (offer n s).pending = s.pending := rfl

@[simp] theorem discardFrame_map (s : State) : (discardFrame s).map = s.map := rfl
@[simp] theorem discardFrame_zones (s : State) : (discardFrame s).zones = s.zones := rfl
@[simp] theorem discardFrame_alarmRequests (s : State) : (discardFrame s).alarmRequests = s.alarmRequests := rfl
@[simp] theorem discardFrame_scanner (s : State) : (discardFrame s).scanner = s.scanner := rfl
@[simp] theorem discardFrame_exits (s : State) : (discardFrame s).exits = s.exits := rfl
@[simp] theorem discardFrame_engine (s : State) : (discardFrame s).engine = s.engine := rfl
@[simp] theorem discardFrame_selector (s : State) : (discardFrame s).selector = s.selector := rfl
@[simp] theorem discardFrame_queue (s : State) : (discardFrame s).queue = s.queue := rfl
@[simp] theorem discardFrame_bus (s : State) : (discardFrame s).bus = s.bus := rfl
@[simp] theorem discardFrame_heads (s : State) : (discardFrame s).heads = s.heads := rfl
@[simp] theorem discardFrame_pair (s : State) : (discardFrame s).pair = s.pair := rfl
@[simp] theorem discardFrame_mode (s : State) : (discardFrame s).mode = s.mode := rfl
@[simp] theorem discardFrame_timing (s : State) : (discardFrame s).timing = s.timing := rfl
@[simp] theorem discardFrame_link (s : State) : (discardFrame s).link = { s.link with discarded := true } := rfl
@[simp] theorem discardFrame_devices (s : State) : (discardFrame s).devices = s.devices := rfl
@[simp] theorem discardFrame_heard (s : State) : (discardFrame s).heard = s.heard := rfl
@[simp] theorem discardFrame_now (s : State) : (discardFrame s).now = s.now := rfl
@[simp] theorem discardFrame_pending (s : State) : (discardFrame s).pending = s.pending := rfl

@[simp] theorem setPointRec_map (p : PointId) (r : Point) (s : State) : (setPointRec p r s).map = { s.map with points := store s.map.points p r } := rfl
@[simp] theorem setPointRec_zones (p : PointId) (r : Point) (s : State) : (setPointRec p r s).zones = s.zones := rfl
@[simp] theorem setPointRec_alarmRequests (p : PointId) (r : Point) (s : State) : (setPointRec p r s).alarmRequests = s.alarmRequests := rfl
@[simp] theorem setPointRec_scanner (p : PointId) (r : Point) (s : State) : (setPointRec p r s).scanner = s.scanner := rfl
@[simp] theorem setPointRec_exits (p : PointId) (r : Point) (s : State) : (setPointRec p r s).exits = s.exits := rfl
@[simp] theorem setPointRec_engine (p : PointId) (r : Point) (s : State) : (setPointRec p r s).engine = s.engine := rfl
@[simp] theorem setPointRec_selector (p : PointId) (r : Point) (s : State) : (setPointRec p r s).selector = s.selector := rfl
@[simp] theorem setPointRec_queue (p : PointId) (r : Point) (s : State) : (setPointRec p r s).queue = s.queue := rfl
@[simp] theorem setPointRec_bus (p : PointId) (r : Point) (s : State) : (setPointRec p r s).bus = s.bus := rfl
@[simp] theorem setPointRec_heads (p : PointId) (r : Point) (s : State) : (setPointRec p r s).heads = s.heads := rfl
@[simp] theorem setPointRec_pair (p : PointId) (r : Point) (s : State) : (setPointRec p r s).pair = s.pair := rfl
@[simp] theorem setPointRec_mode (p : PointId) (r : Point) (s : State) : (setPointRec p r s).mode = s.mode := rfl
@[simp] theorem setPointRec_timing (p : PointId) (r : Point) (s : State) : (setPointRec p r s).timing = s.timing := rfl
@[simp] theorem setPointRec_link (p : PointId) (r : Point) (s : State) : (setPointRec p r s).link = s.link := rfl
@[simp] theorem setPointRec_devices (p : PointId) (r : Point) (s : State) : (setPointRec p r s).devices = s.devices := rfl
@[simp] theorem setPointRec_heard (p : PointId) (r : Point) (s : State) : (setPointRec p r s).heard = s.heard := rfl
@[simp] theorem setPointRec_now (p : PointId) (r : Point) (s : State) : (setPointRec p r s).now = s.now := rfl
@[simp] theorem setPointRec_pending (p : PointId) (r : Point) (s : State) : (setPointRec p r s).pending = s.pending := rfl

@[simp] theorem setAisleRec_map (x : AisleId) (r : Aisle) (s : State) : (setAisleRec x r s).map = { s.map with aisles := store s.map.aisles x r } := rfl
@[simp] theorem setAisleRec_zones (x : AisleId) (r : Aisle) (s : State) : (setAisleRec x r s).zones = s.zones := rfl
@[simp] theorem setAisleRec_alarmRequests (x : AisleId) (r : Aisle) (s : State) : (setAisleRec x r s).alarmRequests = s.alarmRequests := rfl
@[simp] theorem setAisleRec_scanner (x : AisleId) (r : Aisle) (s : State) : (setAisleRec x r s).scanner = s.scanner := rfl
@[simp] theorem setAisleRec_exits (x : AisleId) (r : Aisle) (s : State) : (setAisleRec x r s).exits = s.exits := rfl
@[simp] theorem setAisleRec_engine (x : AisleId) (r : Aisle) (s : State) : (setAisleRec x r s).engine = s.engine := rfl
@[simp] theorem setAisleRec_selector (x : AisleId) (r : Aisle) (s : State) : (setAisleRec x r s).selector = s.selector := rfl
@[simp] theorem setAisleRec_queue (x : AisleId) (r : Aisle) (s : State) : (setAisleRec x r s).queue = s.queue := rfl
@[simp] theorem setAisleRec_bus (x : AisleId) (r : Aisle) (s : State) : (setAisleRec x r s).bus = s.bus := rfl
@[simp] theorem setAisleRec_heads (x : AisleId) (r : Aisle) (s : State) : (setAisleRec x r s).heads = s.heads := rfl
@[simp] theorem setAisleRec_pair (x : AisleId) (r : Aisle) (s : State) : (setAisleRec x r s).pair = s.pair := rfl
@[simp] theorem setAisleRec_mode (x : AisleId) (r : Aisle) (s : State) : (setAisleRec x r s).mode = s.mode := rfl
@[simp] theorem setAisleRec_timing (x : AisleId) (r : Aisle) (s : State) : (setAisleRec x r s).timing = s.timing := rfl
@[simp] theorem setAisleRec_link (x : AisleId) (r : Aisle) (s : State) : (setAisleRec x r s).link = s.link := rfl
@[simp] theorem setAisleRec_devices (x : AisleId) (r : Aisle) (s : State) : (setAisleRec x r s).devices = s.devices := rfl
@[simp] theorem setAisleRec_heard (x : AisleId) (r : Aisle) (s : State) : (setAisleRec x r s).heard = s.heard := rfl
@[simp] theorem setAisleRec_now (x : AisleId) (r : Aisle) (s : State) : (setAisleRec x r s).now = s.now := rfl
@[simp] theorem setAisleRec_pending (x : AisleId) (r : Aisle) (s : State) : (setAisleRec x r s).pending = s.pending := rfl

@[simp] theorem setExitRec_map (e : ExitId) (r : Exit) (s : State) : (setExitRec e r s).map = { s.map with exits := store s.map.exits e r } := rfl
@[simp] theorem setExitRec_zones (e : ExitId) (r : Exit) (s : State) : (setExitRec e r s).zones = s.zones := rfl
@[simp] theorem setExitRec_alarmRequests (e : ExitId) (r : Exit) (s : State) : (setExitRec e r s).alarmRequests = s.alarmRequests := rfl
@[simp] theorem setExitRec_scanner (e : ExitId) (r : Exit) (s : State) : (setExitRec e r s).scanner = s.scanner := rfl
@[simp] theorem setExitRec_exits (e : ExitId) (r : Exit) (s : State) : (setExitRec e r s).exits = s.exits := rfl
@[simp] theorem setExitRec_engine (e : ExitId) (r : Exit) (s : State) : (setExitRec e r s).engine = s.engine := rfl
@[simp] theorem setExitRec_selector (e : ExitId) (r : Exit) (s : State) : (setExitRec e r s).selector = s.selector := rfl
@[simp] theorem setExitRec_queue (e : ExitId) (r : Exit) (s : State) : (setExitRec e r s).queue = s.queue := rfl
@[simp] theorem setExitRec_bus (e : ExitId) (r : Exit) (s : State) : (setExitRec e r s).bus = s.bus := rfl
@[simp] theorem setExitRec_heads (e : ExitId) (r : Exit) (s : State) : (setExitRec e r s).heads = s.heads := rfl
@[simp] theorem setExitRec_pair (e : ExitId) (r : Exit) (s : State) : (setExitRec e r s).pair = s.pair := rfl
@[simp] theorem setExitRec_mode (e : ExitId) (r : Exit) (s : State) : (setExitRec e r s).mode = s.mode := rfl
@[simp] theorem setExitRec_timing (e : ExitId) (r : Exit) (s : State) : (setExitRec e r s).timing = s.timing := rfl
@[simp] theorem setExitRec_link (e : ExitId) (r : Exit) (s : State) : (setExitRec e r s).link = s.link := rfl
@[simp] theorem setExitRec_devices (e : ExitId) (r : Exit) (s : State) : (setExitRec e r s).devices = s.devices := rfl
@[simp] theorem setExitRec_heard (e : ExitId) (r : Exit) (s : State) : (setExitRec e r s).heard = s.heard := rfl
@[simp] theorem setExitRec_now (e : ExitId) (r : Exit) (s : State) : (setExitRec e r s).now = s.now := rfl
@[simp] theorem setExitRec_pending (e : ExitId) (r : Exit) (s : State) : (setExitRec e r s).pending = s.pending := rfl

@[simp] theorem setZoneRec_map (z : ZoneId) (r : Zone) (s : State) : (setZoneRec z r s).map = { s.map with zones := store s.map.zones z r } := rfl
@[simp] theorem setZoneRec_zones (z : ZoneId) (r : Zone) (s : State) : (setZoneRec z r s).zones = s.zones := rfl
@[simp] theorem setZoneRec_alarmRequests (z : ZoneId) (r : Zone) (s : State) : (setZoneRec z r s).alarmRequests = s.alarmRequests := rfl
@[simp] theorem setZoneRec_scanner (z : ZoneId) (r : Zone) (s : State) : (setZoneRec z r s).scanner = s.scanner := rfl
@[simp] theorem setZoneRec_exits (z : ZoneId) (r : Zone) (s : State) : (setZoneRec z r s).exits = s.exits := rfl
@[simp] theorem setZoneRec_engine (z : ZoneId) (r : Zone) (s : State) : (setZoneRec z r s).engine = s.engine := rfl
@[simp] theorem setZoneRec_selector (z : ZoneId) (r : Zone) (s : State) : (setZoneRec z r s).selector = s.selector := rfl
@[simp] theorem setZoneRec_queue (z : ZoneId) (r : Zone) (s : State) : (setZoneRec z r s).queue = s.queue := rfl
@[simp] theorem setZoneRec_bus (z : ZoneId) (r : Zone) (s : State) : (setZoneRec z r s).bus = s.bus := rfl
@[simp] theorem setZoneRec_heads (z : ZoneId) (r : Zone) (s : State) : (setZoneRec z r s).heads = s.heads := rfl
@[simp] theorem setZoneRec_pair (z : ZoneId) (r : Zone) (s : State) : (setZoneRec z r s).pair = s.pair := rfl
@[simp] theorem setZoneRec_mode (z : ZoneId) (r : Zone) (s : State) : (setZoneRec z r s).mode = s.mode := rfl
@[simp] theorem setZoneRec_timing (z : ZoneId) (r : Zone) (s : State) : (setZoneRec z r s).timing = s.timing := rfl
@[simp] theorem setZoneRec_link (z : ZoneId) (r : Zone) (s : State) : (setZoneRec z r s).link = s.link := rfl
@[simp] theorem setZoneRec_devices (z : ZoneId) (r : Zone) (s : State) : (setZoneRec z r s).devices = s.devices := rfl
@[simp] theorem setZoneRec_heard (z : ZoneId) (r : Zone) (s : State) : (setZoneRec z r s).heard = s.heard := rfl
@[simp] theorem setZoneRec_now (z : ZoneId) (r : Zone) (s : State) : (setZoneRec z r s).now = s.now := rfl
@[simp] theorem setZoneRec_pending (z : ZoneId) (r : Zone) (s : State) : (setZoneRec z r s).pending = s.pending := rfl

@[simp] theorem setPlacement_map (h : HeadId) (r : Placement) (s : State) : (setPlacement h r s).map = { s.map with placements := store s.map.placements h r } := rfl
@[simp] theorem setPlacement_zones (h : HeadId) (r : Placement) (s : State) : (setPlacement h r s).zones = s.zones := rfl
@[simp] theorem setPlacement_alarmRequests (h : HeadId) (r : Placement) (s : State) : (setPlacement h r s).alarmRequests = s.alarmRequests := rfl
@[simp] theorem setPlacement_scanner (h : HeadId) (r : Placement) (s : State) : (setPlacement h r s).scanner = s.scanner := rfl
@[simp] theorem setPlacement_exits (h : HeadId) (r : Placement) (s : State) : (setPlacement h r s).exits = s.exits := rfl
@[simp] theorem setPlacement_engine (h : HeadId) (r : Placement) (s : State) : (setPlacement h r s).engine = s.engine := rfl
@[simp] theorem setPlacement_selector (h : HeadId) (r : Placement) (s : State) : (setPlacement h r s).selector = s.selector := rfl
@[simp] theorem setPlacement_queue (h : HeadId) (r : Placement) (s : State) : (setPlacement h r s).queue = s.queue := rfl
@[simp] theorem setPlacement_bus (h : HeadId) (r : Placement) (s : State) : (setPlacement h r s).bus = s.bus := rfl
@[simp] theorem setPlacement_heads (h : HeadId) (r : Placement) (s : State) : (setPlacement h r s).heads = s.heads := rfl
@[simp] theorem setPlacement_pair (h : HeadId) (r : Placement) (s : State) : (setPlacement h r s).pair = s.pair := rfl
@[simp] theorem setPlacement_mode (h : HeadId) (r : Placement) (s : State) : (setPlacement h r s).mode = s.mode := rfl
@[simp] theorem setPlacement_timing (h : HeadId) (r : Placement) (s : State) : (setPlacement h r s).timing = s.timing := rfl
@[simp] theorem setPlacement_link (h : HeadId) (r : Placement) (s : State) : (setPlacement h r s).link = s.link := rfl
@[simp] theorem setPlacement_devices (h : HeadId) (r : Placement) (s : State) : (setPlacement h r s).devices = s.devices := rfl
@[simp] theorem setPlacement_heard (h : HeadId) (r : Placement) (s : State) : (setPlacement h r s).heard = s.heard := rfl
@[simp] theorem setPlacement_now (h : HeadId) (r : Placement) (s : State) : (setPlacement h r s).now = s.now := rfl
@[simp] theorem setPlacement_pending (h : HeadId) (r : Placement) (s : State) : (setPlacement h r s).pending = s.pending := rfl

@[simp] theorem setResult_map (v : Validation) (s : State) : (setResult v s).map = { s.map with lastValidation := v } := rfl
@[simp] theorem setResult_zones (v : Validation) (s : State) : (setResult v s).zones = s.zones := rfl
@[simp] theorem setResult_alarmRequests (v : Validation) (s : State) : (setResult v s).alarmRequests = s.alarmRequests := rfl
@[simp] theorem setResult_scanner (v : Validation) (s : State) : (setResult v s).scanner = s.scanner := rfl
@[simp] theorem setResult_exits (v : Validation) (s : State) : (setResult v s).exits = s.exits := rfl
@[simp] theorem setResult_engine (v : Validation) (s : State) : (setResult v s).engine = s.engine := rfl
@[simp] theorem setResult_selector (v : Validation) (s : State) : (setResult v s).selector = s.selector := rfl
@[simp] theorem setResult_queue (v : Validation) (s : State) : (setResult v s).queue = s.queue := rfl
@[simp] theorem setResult_bus (v : Validation) (s : State) : (setResult v s).bus = s.bus := rfl
@[simp] theorem setResult_heads (v : Validation) (s : State) : (setResult v s).heads = s.heads := rfl
@[simp] theorem setResult_pair (v : Validation) (s : State) : (setResult v s).pair = s.pair := rfl
@[simp] theorem setResult_mode (v : Validation) (s : State) : (setResult v s).mode = s.mode := rfl
@[simp] theorem setResult_timing (v : Validation) (s : State) : (setResult v s).timing = s.timing := rfl
@[simp] theorem setResult_link (v : Validation) (s : State) : (setResult v s).link = s.link := rfl
@[simp] theorem setResult_devices (v : Validation) (s : State) : (setResult v s).devices = s.devices := rfl
@[simp] theorem setResult_heard (v : Validation) (s : State) : (setResult v s).heard = s.heard := rfl
@[simp] theorem setResult_now (v : Validation) (s : State) : (setResult v s).now = s.now := rfl
@[simp] theorem setResult_pending (v : Validation) (s : State) : (setResult v s).pending = s.pending := rfl

@[simp] theorem replaceTable_map (table : RouteTable) (s : State) : (replaceTable table s).map = s.map := rfl
@[simp] theorem replaceTable_zones (table : RouteTable) (s : State) : (replaceTable table s).zones = s.zones := rfl
@[simp] theorem replaceTable_alarmRequests (table : RouteTable) (s : State) : (replaceTable table s).alarmRequests = s.alarmRequests := rfl
@[simp] theorem replaceTable_scanner (table : RouteTable) (s : State) : (replaceTable table s).scanner = s.scanner := rfl
@[simp] theorem replaceTable_exits (table : RouteTable) (s : State) : (replaceTable table s).exits = s.exits := rfl
@[simp] theorem replaceTable_engine (table : RouteTable) (s : State) : (replaceTable table s).engine = { s.engine with table := table, digest := digestOf table } := rfl
@[simp] theorem replaceTable_selector (table : RouteTable) (s : State) : (replaceTable table s).selector = s.selector := rfl
@[simp] theorem replaceTable_queue (table : RouteTable) (s : State) : (replaceTable table s).queue = s.queue := rfl
@[simp] theorem replaceTable_bus (table : RouteTable) (s : State) : (replaceTable table s).bus = s.bus := rfl
@[simp] theorem replaceTable_heads (table : RouteTable) (s : State) : (replaceTable table s).heads = s.heads := rfl
@[simp] theorem replaceTable_pair (table : RouteTable) (s : State) : (replaceTable table s).pair = s.pair := rfl
@[simp] theorem replaceTable_mode (table : RouteTable) (s : State) : (replaceTable table s).mode = s.mode := rfl
@[simp] theorem replaceTable_timing (table : RouteTable) (s : State) : (replaceTable table s).timing = s.timing := rfl
@[simp] theorem replaceTable_link (table : RouteTable) (s : State) : (replaceTable table s).link = s.link := rfl
@[simp] theorem replaceTable_devices (table : RouteTable) (s : State) : (replaceTable table s).devices = s.devices := rfl
@[simp] theorem replaceTable_heard (table : RouteTable) (s : State) : (replaceTable table s).heard = s.heard := rfl
@[simp] theorem replaceTable_now (table : RouteTable) (s : State) : (replaceTable table s).now = s.now := rfl
@[simp] theorem replaceTable_pending (table : RouteTable) (s : State) : (replaceTable table s).pending = s.pending := rfl

@[simp] theorem startRun_map (s : State) : (startRun s).map = s.map := rfl
@[simp] theorem startRun_zones (s : State) : (startRun s).zones = s.zones := rfl
@[simp] theorem startRun_alarmRequests (s : State) : (startRun s).alarmRequests = s.alarmRequests := rfl
@[simp] theorem startRun_scanner (s : State) : (startRun s).scanner = s.scanner := rfl
@[simp] theorem startRun_exits (s : State) : (startRun s).exits = s.exits := rfl
@[simp] theorem startRun_selector (s : State) : (startRun s).selector = s.selector := rfl
@[simp] theorem startRun_queue (s : State) : (startRun s).queue = s.queue := rfl
@[simp] theorem startRun_bus (s : State) : (startRun s).bus = s.bus := rfl
@[simp] theorem startRun_heads (s : State) : (startRun s).heads = s.heads := rfl
@[simp] theorem startRun_pair (s : State) : (startRun s).pair = s.pair := rfl
@[simp] theorem startRun_mode (s : State) : (startRun s).mode = s.mode := rfl
@[simp] theorem startRun_timing (s : State) : (startRun s).timing = s.timing := rfl
@[simp] theorem startRun_link (s : State) : (startRun s).link = s.link := rfl
@[simp] theorem startRun_devices (s : State) : (startRun s).devices = s.devices := rfl
@[simp] theorem startRun_heard (s : State) : (startRun s).heard = s.heard := rfl
@[simp] theorem startRun_now (s : State) : (startRun s).now = s.now := rfl
@[simp] theorem startRun_pending (s : State) : (startRun s).pending = s.pending := rfl

@[simp] theorem abandonRun_map (s : State) : (abandonRun s).map = s.map := rfl
@[simp] theorem abandonRun_zones (s : State) : (abandonRun s).zones = s.zones := rfl
@[simp] theorem abandonRun_alarmRequests (s : State) : (abandonRun s).alarmRequests = s.alarmRequests := rfl
@[simp] theorem abandonRun_scanner (s : State) : (abandonRun s).scanner = s.scanner := rfl
@[simp] theorem abandonRun_exits (s : State) : (abandonRun s).exits = s.exits := rfl
@[simp] theorem abandonRun_selector (s : State) : (abandonRun s).selector = s.selector := rfl
@[simp] theorem abandonRun_queue (s : State) : (abandonRun s).queue = s.queue := rfl
@[simp] theorem abandonRun_bus (s : State) : (abandonRun s).bus = s.bus := rfl
@[simp] theorem abandonRun_heads (s : State) : (abandonRun s).heads = s.heads := rfl
@[simp] theorem abandonRun_pair (s : State) : (abandonRun s).pair = s.pair := rfl
@[simp] theorem abandonRun_mode (s : State) : (abandonRun s).mode = s.mode := rfl
@[simp] theorem abandonRun_timing (s : State) : (abandonRun s).timing = s.timing := rfl
@[simp] theorem abandonRun_link (s : State) : (abandonRun s).link = s.link := rfl
@[simp] theorem abandonRun_devices (s : State) : (abandonRun s).devices = s.devices := rfl
@[simp] theorem abandonRun_heard (s : State) : (abandonRun s).heard = s.heard := rfl
@[simp] theorem abandonRun_now (s : State) : (abandonRun s).now = s.now := rfl
@[simp] theorem abandonRun_pending (s : State) : (abandonRun s).pending = s.pending := rfl

@[simp] theorem clearEngine_map (s : State) : (clearEngine s).map = s.map := rfl
@[simp] theorem clearEngine_zones (s : State) : (clearEngine s).zones = s.zones := rfl
@[simp] theorem clearEngine_alarmRequests (s : State) : (clearEngine s).alarmRequests = s.alarmRequests := rfl
@[simp] theorem clearEngine_scanner (s : State) : (clearEngine s).scanner = s.scanner := rfl
@[simp] theorem clearEngine_exits (s : State) : (clearEngine s).exits = s.exits := rfl
@[simp] theorem clearEngine_selector (s : State) : (clearEngine s).selector = s.selector := rfl
@[simp] theorem clearEngine_queue (s : State) : (clearEngine s).queue = s.queue := rfl
@[simp] theorem clearEngine_bus (s : State) : (clearEngine s).bus = s.bus := rfl
@[simp] theorem clearEngine_heads (s : State) : (clearEngine s).heads = s.heads := rfl
@[simp] theorem clearEngine_pair (s : State) : (clearEngine s).pair = s.pair := rfl
@[simp] theorem clearEngine_mode (s : State) : (clearEngine s).mode = s.mode := rfl
@[simp] theorem clearEngine_timing (s : State) : (clearEngine s).timing = s.timing := rfl
@[simp] theorem clearEngine_link (s : State) : (clearEngine s).link = s.link := rfl
@[simp] theorem clearEngine_devices (s : State) : (clearEngine s).devices = s.devices := rfl
@[simp] theorem clearEngine_heard (s : State) : (clearEngine s).heard = s.heard := rfl
@[simp] theorem clearEngine_now (s : State) : (clearEngine s).now = s.now := rfl
@[simp] theorem clearEngine_pending (s : State) : (clearEngine s).pending = s.pending := rfl

@[simp] theorem dropDisplay_map (h : HeadId) (s : State) : (dropDisplay h s).map = s.map := rfl
@[simp] theorem dropDisplay_zones (h : HeadId) (s : State) : (dropDisplay h s).zones = s.zones := rfl
@[simp] theorem dropDisplay_alarmRequests (h : HeadId) (s : State) : (dropDisplay h s).alarmRequests = s.alarmRequests := rfl
@[simp] theorem dropDisplay_scanner (h : HeadId) (s : State) : (dropDisplay h s).scanner = s.scanner := rfl
@[simp] theorem dropDisplay_exits (h : HeadId) (s : State) : (dropDisplay h s).exits = s.exits := rfl
@[simp] theorem dropDisplay_engine (h : HeadId) (s : State) : (dropDisplay h s).engine = s.engine := rfl
@[simp] theorem dropDisplay_selector (h : HeadId) (s : State) : (dropDisplay h s).selector = { s.selector with desired := store s.selector.desired h none } := rfl
@[simp] theorem dropDisplay_queue (h : HeadId) (s : State) : (dropDisplay h s).queue = withoutHead h s.queue := rfl
@[simp] theorem dropDisplay_bus (h : HeadId) (s : State) : (dropDisplay h s).bus = s.bus := rfl
@[simp] theorem dropDisplay_heads (h : HeadId) (s : State) : (dropDisplay h s).heads = s.heads := rfl
@[simp] theorem dropDisplay_pair (h : HeadId) (s : State) : (dropDisplay h s).pair = s.pair := rfl
@[simp] theorem dropDisplay_mode (h : HeadId) (s : State) : (dropDisplay h s).mode = s.mode := rfl
@[simp] theorem dropDisplay_timing (h : HeadId) (s : State) : (dropDisplay h s).timing = s.timing := rfl
@[simp] theorem dropDisplay_link (h : HeadId) (s : State) : (dropDisplay h s).link = s.link := rfl
@[simp] theorem dropDisplay_devices (h : HeadId) (s : State) : (dropDisplay h s).devices = s.devices := rfl
@[simp] theorem dropDisplay_heard (h : HeadId) (s : State) : (dropDisplay h s).heard = s.heard := rfl
@[simp] theorem dropDisplay_now (h : HeadId) (s : State) : (dropDisplay h s).now = s.now := rfl
@[simp] theorem dropDisplay_pending (h : HeadId) (s : State) : (dropDisplay h s).pending = s.pending := rfl

@[simp] theorem noteFault_map (h : HeadId) (c : FaultCause) (s : State) : (noteFault h c s).map = s.map := rfl
@[simp] theorem noteFault_zones (h : HeadId) (c : FaultCause) (s : State) : (noteFault h c s).zones = s.zones := rfl
@[simp] theorem noteFault_alarmRequests (h : HeadId) (c : FaultCause) (s : State) : (noteFault h c s).alarmRequests = s.alarmRequests := rfl
@[simp] theorem noteFault_scanner (h : HeadId) (c : FaultCause) (s : State) : (noteFault h c s).scanner = s.scanner := rfl
@[simp] theorem noteFault_exits (h : HeadId) (c : FaultCause) (s : State) : (noteFault h c s).exits = s.exits := rfl
@[simp] theorem noteFault_engine (h : HeadId) (c : FaultCause) (s : State) : (noteFault h c s).engine = s.engine := rfl
@[simp] theorem noteFault_selector (h : HeadId) (c : FaultCause) (s : State) : (noteFault h c s).selector = s.selector := rfl
@[simp] theorem noteFault_queue (h : HeadId) (c : FaultCause) (s : State) : (noteFault h c s).queue = s.queue := rfl
@[simp] theorem noteFault_bus (h : HeadId) (c : FaultCause) (s : State) : (noteFault h c s).bus = s.bus := rfl
@[simp] theorem noteFault_heads (h : HeadId) (c : FaultCause) (s : State) : (noteFault h c s).heads = { s.heads with records := store s.heads.records h (countFault c (headOf s h)) } := rfl
@[simp] theorem noteFault_pair (h : HeadId) (c : FaultCause) (s : State) : (noteFault h c s).pair = s.pair := rfl
@[simp] theorem noteFault_mode (h : HeadId) (c : FaultCause) (s : State) : (noteFault h c s).mode = s.mode := rfl
@[simp] theorem noteFault_timing (h : HeadId) (c : FaultCause) (s : State) : (noteFault h c s).timing = s.timing := rfl
@[simp] theorem noteFault_link (h : HeadId) (c : FaultCause) (s : State) : (noteFault h c s).link = s.link := rfl
@[simp] theorem noteFault_devices (h : HeadId) (c : FaultCause) (s : State) : (noteFault h c s).devices = s.devices := rfl
@[simp] theorem noteFault_heard (h : HeadId) (c : FaultCause) (s : State) : (noteFault h c s).heard = s.heard := rfl
@[simp] theorem noteFault_now (h : HeadId) (c : FaultCause) (s : State) : (noteFault h c s).now = s.now := rfl
@[simp] theorem noteFault_pending (h : HeadId) (c : FaultCause) (s : State) : (noteFault h c s).pending = s.pending := rfl

@[simp] theorem waitUp_map (h : HeadId) (s : State) : (waitUp h s).map = s.map := rfl
@[simp] theorem waitUp_zones (h : HeadId) (s : State) : (waitUp h s).zones = s.zones := rfl
@[simp] theorem waitUp_alarmRequests (h : HeadId) (s : State) : (waitUp h s).alarmRequests = s.alarmRequests := rfl
@[simp] theorem waitUp_scanner (h : HeadId) (s : State) : (waitUp h s).scanner = s.scanner := rfl
@[simp] theorem waitUp_exits (h : HeadId) (s : State) : (waitUp h s).exits = s.exits := rfl
@[simp] theorem waitUp_engine (h : HeadId) (s : State) : (waitUp h s).engine = s.engine := rfl
@[simp] theorem waitUp_selector (h : HeadId) (s : State) : (waitUp h s).selector = s.selector := rfl
@[simp] theorem waitUp_queue (h : HeadId) (s : State) : (waitUp h s).queue = s.queue := rfl
@[simp] theorem waitUp_bus (h : HeadId) (s : State) : (waitUp h s).bus = s.bus := rfl
@[simp] theorem waitUp_pair (h : HeadId) (s : State) : (waitUp h s).pair = s.pair := rfl
@[simp] theorem waitUp_mode (h : HeadId) (s : State) : (waitUp h s).mode = s.mode := rfl
@[simp] theorem waitUp_timing (h : HeadId) (s : State) : (waitUp h s).timing = s.timing := rfl
@[simp] theorem waitUp_link (h : HeadId) (s : State) : (waitUp h s).link = s.link := rfl
@[simp] theorem waitUp_devices (h : HeadId) (s : State) : (waitUp h s).devices = s.devices := rfl
@[simp] theorem waitUp_heard (h : HeadId) (s : State) : (waitUp h s).heard = s.heard := rfl
@[simp] theorem waitUp_now (h : HeadId) (s : State) : (waitUp h s).now = s.now := rfl
@[simp] theorem waitUp_pending (h : HeadId) (s : State) : (waitUp h s).pending = s.pending := rfl

@[simp] theorem takeStatus_map (h : HeadId) (st : AckStatus) (s : State) : (takeStatus h st s).map = s.map := rfl
@[simp] theorem takeStatus_zones (h : HeadId) (st : AckStatus) (s : State) : (takeStatus h st s).zones = s.zones := rfl
@[simp] theorem takeStatus_alarmRequests (h : HeadId) (st : AckStatus) (s : State) : (takeStatus h st s).alarmRequests = s.alarmRequests := rfl
@[simp] theorem takeStatus_scanner (h : HeadId) (st : AckStatus) (s : State) : (takeStatus h st s).scanner = s.scanner := rfl
@[simp] theorem takeStatus_exits (h : HeadId) (st : AckStatus) (s : State) : (takeStatus h st s).exits = s.exits := rfl
@[simp] theorem takeStatus_engine (h : HeadId) (st : AckStatus) (s : State) : (takeStatus h st s).engine = s.engine := rfl
@[simp] theorem takeStatus_selector (h : HeadId) (st : AckStatus) (s : State) : (takeStatus h st s).selector = s.selector := rfl
@[simp] theorem takeStatus_queue (h : HeadId) (st : AckStatus) (s : State) : (takeStatus h st s).queue = s.queue := rfl
@[simp] theorem takeStatus_bus (h : HeadId) (st : AckStatus) (s : State) : (takeStatus h st s).bus = s.bus := rfl
@[simp] theorem takeStatus_pair (h : HeadId) (st : AckStatus) (s : State) : (takeStatus h st s).pair = s.pair := rfl
@[simp] theorem takeStatus_mode (h : HeadId) (st : AckStatus) (s : State) : (takeStatus h st s).mode = s.mode := rfl
@[simp] theorem takeStatus_timing (h : HeadId) (st : AckStatus) (s : State) : (takeStatus h st s).timing = s.timing := rfl
@[simp] theorem takeStatus_link (h : HeadId) (st : AckStatus) (s : State) : (takeStatus h st s).link = s.link := rfl
@[simp] theorem takeStatus_devices (h : HeadId) (st : AckStatus) (s : State) : (takeStatus h st s).devices = s.devices := rfl
@[simp] theorem takeStatus_heard (h : HeadId) (st : AckStatus) (s : State) : (takeStatus h st s).heard = s.heard := rfl
@[simp] theorem takeStatus_now (h : HeadId) (st : AckStatus) (s : State) : (takeStatus h st s).now = s.now := rfl
@[simp] theorem takeStatus_pending (h : HeadId) (st : AckStatus) (s : State) : (takeStatus h st s).pending = s.pending := rfl

@[simp] theorem writeScript_map (i : Fin 12) (steps : Option (List ScriptStep)) (s : State) : (writeScript i steps s).map = s.map := rfl
@[simp] theorem writeScript_zones (i : Fin 12) (steps : Option (List ScriptStep)) (s : State) : (writeScript i steps s).zones = s.zones := rfl
@[simp] theorem writeScript_alarmRequests (i : Fin 12) (steps : Option (List ScriptStep)) (s : State) : (writeScript i steps s).alarmRequests = s.alarmRequests := rfl
@[simp] theorem writeScript_scanner (i : Fin 12) (steps : Option (List ScriptStep)) (s : State) : (writeScript i steps s).scanner = s.scanner := rfl
@[simp] theorem writeScript_exits (i : Fin 12) (steps : Option (List ScriptStep)) (s : State) : (writeScript i steps s).exits = s.exits := rfl
@[simp] theorem writeScript_engine (i : Fin 12) (steps : Option (List ScriptStep)) (s : State) : (writeScript i steps s).engine = s.engine := rfl
@[simp] theorem writeScript_selector (i : Fin 12) (steps : Option (List ScriptStep)) (s : State) : (writeScript i steps s).selector = { s.selector with library := store s.selector.library i steps, generation := s.selector.generation + 1 } := rfl
@[simp] theorem writeScript_queue (i : Fin 12) (steps : Option (List ScriptStep)) (s : State) : (writeScript i steps s).queue = s.queue := rfl
@[simp] theorem writeScript_bus (i : Fin 12) (steps : Option (List ScriptStep)) (s : State) : (writeScript i steps s).bus = s.bus := rfl
@[simp] theorem writeScript_heads (i : Fin 12) (steps : Option (List ScriptStep)) (s : State) : (writeScript i steps s).heads = s.heads := rfl
@[simp] theorem writeScript_pair (i : Fin 12) (steps : Option (List ScriptStep)) (s : State) : (writeScript i steps s).pair = s.pair := rfl
@[simp] theorem writeScript_mode (i : Fin 12) (steps : Option (List ScriptStep)) (s : State) : (writeScript i steps s).mode = s.mode := rfl
@[simp] theorem writeScript_timing (i : Fin 12) (steps : Option (List ScriptStep)) (s : State) : (writeScript i steps s).timing = s.timing := rfl
@[simp] theorem writeScript_link (i : Fin 12) (steps : Option (List ScriptStep)) (s : State) : (writeScript i steps s).link = s.link := rfl
@[simp] theorem writeScript_devices (i : Fin 12) (steps : Option (List ScriptStep)) (s : State) : (writeScript i steps s).devices = s.devices := rfl
@[simp] theorem writeScript_heard (i : Fin 12) (steps : Option (List ScriptStep)) (s : State) : (writeScript i steps s).heard = s.heard := rfl
@[simp] theorem writeScript_now (i : Fin 12) (steps : Option (List ScriptStep)) (s : State) : (writeScript i steps s).now = s.now := rfl
@[simp] theorem writeScript_pending (i : Fin 12) (steps : Option (List ScriptStep)) (s : State) : (writeScript i steps s).pending = s.pending := rfl

@[simp] theorem writeKindMap_map (i : Fin 10) (n : ScriptId) (s : State) : (writeKindMap i n s).map = s.map := rfl
@[simp] theorem writeKindMap_zones (i : Fin 10) (n : ScriptId) (s : State) : (writeKindMap i n s).zones = s.zones := rfl
@[simp] theorem writeKindMap_alarmRequests (i : Fin 10) (n : ScriptId) (s : State) : (writeKindMap i n s).alarmRequests = s.alarmRequests := rfl
@[simp] theorem writeKindMap_scanner (i : Fin 10) (n : ScriptId) (s : State) : (writeKindMap i n s).scanner = s.scanner := rfl
@[simp] theorem writeKindMap_exits (i : Fin 10) (n : ScriptId) (s : State) : (writeKindMap i n s).exits = s.exits := rfl
@[simp] theorem writeKindMap_engine (i : Fin 10) (n : ScriptId) (s : State) : (writeKindMap i n s).engine = s.engine := rfl
@[simp] theorem writeKindMap_selector (i : Fin 10) (n : ScriptId) (s : State) : (writeKindMap i n s).selector = { s.selector with kindMap := store s.selector.kindMap i n } := rfl
@[simp] theorem writeKindMap_queue (i : Fin 10) (n : ScriptId) (s : State) : (writeKindMap i n s).queue = s.queue := rfl
@[simp] theorem writeKindMap_bus (i : Fin 10) (n : ScriptId) (s : State) : (writeKindMap i n s).bus = s.bus := rfl
@[simp] theorem writeKindMap_heads (i : Fin 10) (n : ScriptId) (s : State) : (writeKindMap i n s).heads = s.heads := rfl
@[simp] theorem writeKindMap_pair (i : Fin 10) (n : ScriptId) (s : State) : (writeKindMap i n s).pair = s.pair := rfl
@[simp] theorem writeKindMap_mode (i : Fin 10) (n : ScriptId) (s : State) : (writeKindMap i n s).mode = s.mode := rfl
@[simp] theorem writeKindMap_timing (i : Fin 10) (n : ScriptId) (s : State) : (writeKindMap i n s).timing = s.timing := rfl
@[simp] theorem writeKindMap_link (i : Fin 10) (n : ScriptId) (s : State) : (writeKindMap i n s).link = s.link := rfl
@[simp] theorem writeKindMap_devices (i : Fin 10) (n : ScriptId) (s : State) : (writeKindMap i n s).devices = s.devices := rfl
@[simp] theorem writeKindMap_heard (i : Fin 10) (n : ScriptId) (s : State) : (writeKindMap i n s).heard = s.heard := rfl
@[simp] theorem writeKindMap_now (i : Fin 10) (n : ScriptId) (s : State) : (writeKindMap i n s).now = s.now := rfl
@[simp] theorem writeKindMap_pending (i : Fin 10) (n : ScriptId) (s : State) : (writeKindMap i n s).pending = s.pending := rfl

@[simp] theorem followPoint_map (p : PointId) (s : State) : (followPoint p s).map = s.map := rfl
@[simp] theorem followPoint_zones (p : PointId) (s : State) : (followPoint p s).zones = s.zones := rfl
@[simp] theorem followPoint_alarmRequests (p : PointId) (s : State) : (followPoint p s).alarmRequests = s.alarmRequests := rfl
@[simp] theorem followPoint_scanner (p : PointId) (s : State) : (followPoint p s).scanner = s.scanner := rfl
@[simp] theorem followPoint_exits (p : PointId) (s : State) : (followPoint p s).exits = s.exits := rfl
@[simp] theorem followPoint_selector (p : PointId) (s : State) : (followPoint p s).selector = s.selector := rfl
@[simp] theorem followPoint_queue (p : PointId) (s : State) : (followPoint p s).queue = s.queue := rfl
@[simp] theorem followPoint_bus (p : PointId) (s : State) : (followPoint p s).bus = s.bus := rfl
@[simp] theorem followPoint_heads (p : PointId) (s : State) : (followPoint p s).heads = s.heads := rfl
@[simp] theorem followPoint_pair (p : PointId) (s : State) : (followPoint p s).pair = s.pair := rfl
@[simp] theorem followPoint_mode (p : PointId) (s : State) : (followPoint p s).mode = s.mode := rfl
@[simp] theorem followPoint_timing (p : PointId) (s : State) : (followPoint p s).timing = s.timing := rfl
@[simp] theorem followPoint_link (p : PointId) (s : State) : (followPoint p s).link = s.link := rfl
@[simp] theorem followPoint_devices (p : PointId) (s : State) : (followPoint p s).devices = s.devices := rfl
@[simp] theorem followPoint_heard (p : PointId) (s : State) : (followPoint p s).heard = s.heard := rfl
@[simp] theorem followPoint_now (p : PointId) (s : State) : (followPoint p s).now = s.now := rfl
@[simp] theorem followPoint_pending (p : PointId) (s : State) : (followPoint p s).pending = s.pending := rfl

@[simp] theorem restartLink_map (s : State) : (restartLink s).map = s.map := rfl
@[simp] theorem restartLink_zones (s : State) : (restartLink s).zones = s.zones := rfl
@[simp] theorem restartLink_alarmRequests (s : State) : (restartLink s).alarmRequests = s.alarmRequests := rfl
@[simp] theorem restartLink_scanner (s : State) : (restartLink s).scanner = s.scanner := rfl
@[simp] theorem restartLink_exits (s : State) : (restartLink s).exits = s.exits := rfl
@[simp] theorem restartLink_engine (s : State) : (restartLink s).engine = s.engine := rfl
@[simp] theorem restartLink_selector (s : State) : (restartLink s).selector = s.selector := rfl
@[simp] theorem restartLink_queue (s : State) : (restartLink s).queue = s.queue := rfl
@[simp] theorem restartLink_bus (s : State) : (restartLink s).bus = s.bus := rfl
@[simp] theorem restartLink_heads (s : State) : (restartLink s).heads = s.heads := rfl
@[simp] theorem restartLink_pair (s : State) : (restartLink s).pair = s.pair := rfl
@[simp] theorem restartLink_mode (s : State) : (restartLink s).mode = s.mode := rfl
@[simp] theorem restartLink_timing (s : State) : (restartLink s).timing = s.timing := rfl
@[simp] theorem restartLink_link (s : State) : (restartLink s).link = { s.link with notices := [], lossMark := false, discarded := false } := rfl
@[simp] theorem restartLink_devices (s : State) : (restartLink s).devices = s.devices := rfl
@[simp] theorem restartLink_heard (s : State) : (restartLink s).heard = s.heard := rfl
@[simp] theorem restartLink_now (s : State) : (restartLink s).now = s.now := rfl
@[simp] theorem restartLink_pending (s : State) : (restartLink s).pending = s.pending := rfl

@[simp] theorem openAisles_zones (s : State) : (openAisles s).zones = s.zones := rfl
@[simp] theorem openAisles_alarmRequests (s : State) : (openAisles s).alarmRequests = s.alarmRequests := rfl
@[simp] theorem openAisles_scanner (s : State) : (openAisles s).scanner = s.scanner := rfl
@[simp] theorem openAisles_exits (s : State) : (openAisles s).exits = s.exits := rfl
@[simp] theorem openAisles_engine (s : State) : (openAisles s).engine = s.engine := rfl
@[simp] theorem openAisles_selector (s : State) : (openAisles s).selector = s.selector := rfl
@[simp] theorem openAisles_queue (s : State) : (openAisles s).queue = s.queue := rfl
@[simp] theorem openAisles_bus (s : State) : (openAisles s).bus = s.bus := rfl
@[simp] theorem openAisles_heads (s : State) : (openAisles s).heads = s.heads := rfl
@[simp] theorem openAisles_pair (s : State) : (openAisles s).pair = s.pair := rfl
@[simp] theorem openAisles_mode (s : State) : (openAisles s).mode = s.mode := rfl
@[simp] theorem openAisles_timing (s : State) : (openAisles s).timing = s.timing := rfl
@[simp] theorem openAisles_link (s : State) : (openAisles s).link = s.link := rfl
@[simp] theorem openAisles_devices (s : State) : (openAisles s).devices = s.devices := rfl
@[simp] theorem openAisles_heard (s : State) : (openAisles s).heard = s.heard := rfl
@[simp] theorem openAisles_now (s : State) : (openAisles s).now = s.now := rfl
@[simp] theorem openAisles_pending (s : State) : (openAisles s).pending = s.pending := rfl

@[simp] theorem startPairSilence_map (s : State) : (startPairSilence s).map = s.map := rfl
@[simp] theorem startPairSilence_zones (s : State) : (startPairSilence s).zones = s.zones := rfl
@[simp] theorem startPairSilence_alarmRequests (s : State) : (startPairSilence s).alarmRequests = s.alarmRequests := rfl
@[simp] theorem startPairSilence_scanner (s : State) : (startPairSilence s).scanner = s.scanner := rfl
@[simp] theorem startPairSilence_exits (s : State) : (startPairSilence s).exits = s.exits := rfl
@[simp] theorem startPairSilence_engine (s : State) : (startPairSilence s).engine = s.engine := rfl
@[simp] theorem startPairSilence_selector (s : State) : (startPairSilence s).selector = s.selector := rfl
@[simp] theorem startPairSilence_queue (s : State) : (startPairSilence s).queue = s.queue := rfl
@[simp] theorem startPairSilence_bus (s : State) : (startPairSilence s).bus = s.bus := rfl
@[simp] theorem startPairSilence_heads (s : State) : (startPairSilence s).heads = s.heads := rfl
@[simp] theorem startPairSilence_pair (s : State) : (startPairSilence s).pair = { s.pair with silence := some (s.now + claimWait s) } := rfl
@[simp] theorem startPairSilence_mode (s : State) : (startPairSilence s).mode = s.mode := rfl
@[simp] theorem startPairSilence_timing (s : State) : (startPairSilence s).timing = s.timing := rfl
@[simp] theorem startPairSilence_link (s : State) : (startPairSilence s).link = s.link := rfl
@[simp] theorem startPairSilence_devices (s : State) : (startPairSilence s).devices = s.devices := rfl
@[simp] theorem startPairSilence_heard (s : State) : (startPairSilence s).heard = s.heard := rfl
@[simp] theorem startPairSilence_now (s : State) : (startPairSilence s).now = s.now := rfl
@[simp] theorem startPairSilence_pending (s : State) : (startPairSilence s).pending = s.pending := rfl

@[simp] theorem stopDriving_map (s : State) : (stopDriving s).map = s.map := rfl
@[simp] theorem stopDriving_zones (s : State) : (stopDriving s).zones = s.zones := rfl
@[simp] theorem stopDriving_alarmRequests (s : State) : (stopDriving s).alarmRequests = s.alarmRequests := rfl
@[simp] theorem stopDriving_scanner (s : State) : (stopDriving s).scanner = s.scanner := rfl
@[simp] theorem stopDriving_exits (s : State) : (stopDriving s).exits = s.exits := rfl
@[simp] theorem stopDriving_engine (s : State) : (stopDriving s).engine = s.engine := rfl
@[simp] theorem stopDriving_selector (s : State) : (stopDriving s).selector = s.selector := rfl
@[simp] theorem stopDriving_queue (s : State) : (stopDriving s).queue = s.queue := rfl
@[simp] theorem stopDriving_bus (s : State) : (stopDriving s).bus = { s.bus with releaseAll := false, line := none } := rfl
@[simp] theorem stopDriving_heads (s : State) : (stopDriving s).heads = s.heads := rfl
@[simp] theorem stopDriving_pair (s : State) : (stopDriving s).pair = s.pair := rfl
@[simp] theorem stopDriving_mode (s : State) : (stopDriving s).mode = s.mode := rfl
@[simp] theorem stopDriving_timing (s : State) : (stopDriving s).timing = s.timing := rfl
@[simp] theorem stopDriving_link (s : State) : (stopDriving s).link = s.link := rfl
@[simp] theorem stopDriving_devices (s : State) : (stopDriving s).devices = s.devices := rfl
@[simp] theorem stopDriving_heard (s : State) : (stopDriving s).heard = s.heard := rfl
@[simp] theorem stopDriving_now (s : State) : (stopDriving s).now = s.now := rfl
@[simp] theorem stopDriving_pending (s : State) : (stopDriving s).pending = s.pending := rfl

@[simp] theorem missedExchange_map (s : State) : (missedExchange s).map = s.map := rfl
@[simp] theorem missedExchange_zones (s : State) : (missedExchange s).zones = s.zones := rfl
@[simp] theorem missedExchange_alarmRequests (s : State) : (missedExchange s).alarmRequests = s.alarmRequests := rfl
@[simp] theorem missedExchange_scanner (s : State) : (missedExchange s).scanner = s.scanner := rfl
@[simp] theorem missedExchange_exits (s : State) : (missedExchange s).exits = s.exits := rfl
@[simp] theorem missedExchange_engine (s : State) : (missedExchange s).engine = s.engine := rfl
@[simp] theorem missedExchange_selector (s : State) : (missedExchange s).selector = s.selector := rfl
@[simp] theorem missedExchange_queue (s : State) : (missedExchange s).queue = s.queue := rfl
@[simp] theorem missedExchange_bus (s : State) : (missedExchange s).bus = s.bus := rfl
@[simp] theorem missedExchange_heads (s : State) : (missedExchange s).heads = s.heads := rfl
@[simp] theorem missedExchange_pair (s : State) : (missedExchange s).pair = { s.pair with mismatch := 0 } := rfl
@[simp] theorem missedExchange_mode (s : State) : (missedExchange s).mode = s.mode := rfl
@[simp] theorem missedExchange_timing (s : State) : (missedExchange s).timing = s.timing := rfl
@[simp] theorem missedExchange_link (s : State) : (missedExchange s).link = s.link := rfl
@[simp] theorem missedExchange_devices (s : State) : (missedExchange s).devices = s.devices := rfl
@[simp] theorem missedExchange_heard (s : State) : (missedExchange s).heard = s.heard := rfl
@[simp] theorem missedExchange_now (s : State) : (missedExchange s).now = s.now := rfl
@[simp] theorem missedExchange_pending (s : State) : (missedExchange s).pending = s.pending := rfl

@[simp] theorem setReceiver_map (hunt : Hunt) (gathered : List Byte) (escape : Bool) (s : State) : (setReceiver hunt gathered escape s).map = s.map := rfl
@[simp] theorem setReceiver_zones (hunt : Hunt) (gathered : List Byte) (escape : Bool) (s : State) : (setReceiver hunt gathered escape s).zones = s.zones := rfl
@[simp] theorem setReceiver_alarmRequests (hunt : Hunt) (gathered : List Byte) (escape : Bool) (s : State) : (setReceiver hunt gathered escape s).alarmRequests = s.alarmRequests := rfl
@[simp] theorem setReceiver_scanner (hunt : Hunt) (gathered : List Byte) (escape : Bool) (s : State) : (setReceiver hunt gathered escape s).scanner = s.scanner := rfl
@[simp] theorem setReceiver_exits (hunt : Hunt) (gathered : List Byte) (escape : Bool) (s : State) : (setReceiver hunt gathered escape s).exits = s.exits := rfl
@[simp] theorem setReceiver_engine (hunt : Hunt) (gathered : List Byte) (escape : Bool) (s : State) : (setReceiver hunt gathered escape s).engine = s.engine := rfl
@[simp] theorem setReceiver_selector (hunt : Hunt) (gathered : List Byte) (escape : Bool) (s : State) : (setReceiver hunt gathered escape s).selector = s.selector := rfl
@[simp] theorem setReceiver_queue (hunt : Hunt) (gathered : List Byte) (escape : Bool) (s : State) : (setReceiver hunt gathered escape s).queue = s.queue := rfl
@[simp] theorem setReceiver_bus (hunt : Hunt) (gathered : List Byte) (escape : Bool) (s : State) : (setReceiver hunt gathered escape s).bus = s.bus := rfl
@[simp] theorem setReceiver_heads (hunt : Hunt) (gathered : List Byte) (escape : Bool) (s : State) : (setReceiver hunt gathered escape s).heads = s.heads := rfl
@[simp] theorem setReceiver_pair (hunt : Hunt) (gathered : List Byte) (escape : Bool) (s : State) : (setReceiver hunt gathered escape s).pair = s.pair := rfl
@[simp] theorem setReceiver_mode (hunt : Hunt) (gathered : List Byte) (escape : Bool) (s : State) : (setReceiver hunt gathered escape s).mode = s.mode := rfl
@[simp] theorem setReceiver_timing (hunt : Hunt) (gathered : List Byte) (escape : Bool) (s : State) : (setReceiver hunt gathered escape s).timing = s.timing := rfl
@[simp] theorem setReceiver_link (hunt : Hunt) (gathered : List Byte) (escape : Bool) (s : State) : (setReceiver hunt gathered escape s).link = { s.link with hunt := hunt, gathered := gathered, escape := escape } := rfl
@[simp] theorem setReceiver_devices (hunt : Hunt) (gathered : List Byte) (escape : Bool) (s : State) : (setReceiver hunt gathered escape s).devices = s.devices := rfl
@[simp] theorem setReceiver_heard (hunt : Hunt) (gathered : List Byte) (escape : Bool) (s : State) : (setReceiver hunt gathered escape s).heard = s.heard := rfl
@[simp] theorem setReceiver_now (hunt : Hunt) (gathered : List Byte) (escape : Bool) (s : State) : (setReceiver hunt gathered escape s).now = s.now := rfl
@[simp] theorem setReceiver_pending (hunt : Hunt) (gathered : List Byte) (escape : Bool) (s : State) : (setReceiver hunt gathered escape s).pending = s.pending := rfl

@[simp] theorem eachHead_map (f : Device → Device) (s : State) : (eachHead f s).map = s.map := rfl
@[simp] theorem eachHead_zones (f : Device → Device) (s : State) : (eachHead f s).zones = s.zones := rfl
@[simp] theorem eachHead_alarmRequests (f : Device → Device) (s : State) : (eachHead f s).alarmRequests = s.alarmRequests := rfl
@[simp] theorem eachHead_scanner (f : Device → Device) (s : State) : (eachHead f s).scanner = s.scanner := rfl
@[simp] theorem eachHead_exits (f : Device → Device) (s : State) : (eachHead f s).exits = s.exits := rfl
@[simp] theorem eachHead_engine (f : Device → Device) (s : State) : (eachHead f s).engine = s.engine := rfl
@[simp] theorem eachHead_selector (f : Device → Device) (s : State) : (eachHead f s).selector = s.selector := rfl
@[simp] theorem eachHead_queue (f : Device → Device) (s : State) : (eachHead f s).queue = s.queue := rfl
@[simp] theorem eachHead_bus (f : Device → Device) (s : State) : (eachHead f s).bus = s.bus := rfl
@[simp] theorem eachHead_heads (f : Device → Device) (s : State) : (eachHead f s).heads = s.heads := rfl
@[simp] theorem eachHead_pair (f : Device → Device) (s : State) : (eachHead f s).pair = s.pair := rfl
@[simp] theorem eachHead_mode (f : Device → Device) (s : State) : (eachHead f s).mode = s.mode := rfl
@[simp] theorem eachHead_timing (f : Device → Device) (s : State) : (eachHead f s).timing = s.timing := rfl
@[simp] theorem eachHead_link (f : Device → Device) (s : State) : (eachHead f s).link = s.link := rfl
@[simp] theorem eachHead_devices (f : Device → Device) (s : State) : (eachHead f s).devices = s.devices.map f := rfl
@[simp] theorem eachHead_heard (f : Device → Device) (s : State) : (eachHead f s).heard = s.heard := rfl
@[simp] theorem eachHead_now (f : Device → Device) (s : State) : (eachHead f s).now = s.now := rfl
@[simp] theorem eachHead_pending (f : Device → Device) (s : State) : (eachHead f s).pending = s.pending := rfl

@[simp] theorem eachHears_map (f : Heard → Device → Device) (x : Heard) (s : State) : (eachHears f x s).map = s.map := rfl
@[simp] theorem eachHears_zones (f : Heard → Device → Device) (x : Heard) (s : State) : (eachHears f x s).zones = s.zones := rfl
@[simp] theorem eachHears_alarmRequests (f : Heard → Device → Device) (x : Heard) (s : State) : (eachHears f x s).alarmRequests = s.alarmRequests := rfl
@[simp] theorem eachHears_scanner (f : Heard → Device → Device) (x : Heard) (s : State) : (eachHears f x s).scanner = s.scanner := rfl
@[simp] theorem eachHears_exits (f : Heard → Device → Device) (x : Heard) (s : State) : (eachHears f x s).exits = s.exits := rfl
@[simp] theorem eachHears_engine (f : Heard → Device → Device) (x : Heard) (s : State) : (eachHears f x s).engine = s.engine := rfl
@[simp] theorem eachHears_selector (f : Heard → Device → Device) (x : Heard) (s : State) : (eachHears f x s).selector = s.selector := rfl
@[simp] theorem eachHears_queue (f : Heard → Device → Device) (x : Heard) (s : State) : (eachHears f x s).queue = s.queue := rfl
@[simp] theorem eachHears_bus (f : Heard → Device → Device) (x : Heard) (s : State) : (eachHears f x s).bus = s.bus := rfl
@[simp] theorem eachHears_heads (f : Heard → Device → Device) (x : Heard) (s : State) : (eachHears f x s).heads = s.heads := rfl
@[simp] theorem eachHears_pair (f : Heard → Device → Device) (x : Heard) (s : State) : (eachHears f x s).pair = s.pair := rfl
@[simp] theorem eachHears_mode (f : Heard → Device → Device) (x : Heard) (s : State) : (eachHears f x s).mode = s.mode := rfl
@[simp] theorem eachHears_timing (f : Heard → Device → Device) (x : Heard) (s : State) : (eachHears f x s).timing = s.timing := rfl
@[simp] theorem eachHears_link (f : Heard → Device → Device) (x : Heard) (s : State) : (eachHears f x s).link = s.link := rfl
@[simp] theorem eachHears_devices (f : Heard → Device → Device) (x : Heard) (s : State) : (eachHears f x s).devices = s.devices.map (f x) := rfl
@[simp] theorem eachHears_heard (f : Heard → Device → Device) (x : Heard) (s : State) : (eachHears f x s).heard = some x := rfl
@[simp] theorem eachHears_now (f : Heard → Device → Device) (x : Heard) (s : State) : (eachHears f x s).now = s.now := rfl
@[simp] theorem eachHears_pending (f : Heard → Device → Device) (x : Heard) (s : State) : (eachHears f x s).pending = s.pending := rfl

@[simp] theorem countSlot_map (s : State) : (countSlot s).map = s.map := rfl
@[simp] theorem countSlot_zones (s : State) : (countSlot s).zones = s.zones := rfl
@[simp] theorem countSlot_alarmRequests (s : State) : (countSlot s).alarmRequests = s.alarmRequests := rfl
@[simp] theorem countSlot_scanner (s : State) : (countSlot s).scanner = s.scanner := rfl
@[simp] theorem countSlot_exits (s : State) : (countSlot s).exits = s.exits := rfl
@[simp] theorem countSlot_engine (s : State) : (countSlot s).engine = s.engine := rfl
@[simp] theorem countSlot_selector (s : State) : (countSlot s).selector = s.selector := rfl
@[simp] theorem countSlot_queue (s : State) : (countSlot s).queue = s.queue := rfl
@[simp] theorem countSlot_bus (s : State) : (countSlot s).bus = { s.bus with
      frame := s.bus.frame.map fun f =>
        { f with slot := Fin.ofNat 100 (min 99 ((s.now - f.start) / Config.slotTime)) } } := rfl
@[simp] theorem countSlot_heads (s : State) : (countSlot s).heads = s.heads := rfl
@[simp] theorem countSlot_pair (s : State) : (countSlot s).pair = s.pair := rfl
@[simp] theorem countSlot_mode (s : State) : (countSlot s).mode = s.mode := rfl
@[simp] theorem countSlot_timing (s : State) : (countSlot s).timing = s.timing := rfl
@[simp] theorem countSlot_link (s : State) : (countSlot s).link = s.link := rfl
@[simp] theorem countSlot_devices (s : State) : (countSlot s).devices = s.devices := rfl
@[simp] theorem countSlot_heard (s : State) : (countSlot s).heard = s.heard := rfl
@[simp] theorem countSlot_now (s : State) : (countSlot s).now = s.now := rfl
@[simp] theorem countSlot_pending (s : State) : (countSlot s).pending = s.pending := rfl

@[simp] theorem offerPair_map (cause : PairCause) (before : PairState) (s : State) : (offerPair cause before s).map = s.map := rfl
@[simp] theorem offerPair_zones (cause : PairCause) (before : PairState) (s : State) : (offerPair cause before s).zones = s.zones := rfl
@[simp] theorem offerPair_alarmRequests (cause : PairCause) (before : PairState) (s : State) : (offerPair cause before s).alarmRequests = s.alarmRequests := rfl
@[simp] theorem offerPair_scanner (cause : PairCause) (before : PairState) (s : State) : (offerPair cause before s).scanner = s.scanner := rfl
@[simp] theorem offerPair_exits (cause : PairCause) (before : PairState) (s : State) : (offerPair cause before s).exits = s.exits := rfl
@[simp] theorem offerPair_engine (cause : PairCause) (before : PairState) (s : State) : (offerPair cause before s).engine = s.engine := rfl
@[simp] theorem offerPair_selector (cause : PairCause) (before : PairState) (s : State) : (offerPair cause before s).selector = s.selector := rfl
@[simp] theorem offerPair_queue (cause : PairCause) (before : PairState) (s : State) : (offerPair cause before s).queue = s.queue := rfl
@[simp] theorem offerPair_bus (cause : PairCause) (before : PairState) (s : State) : (offerPair cause before s).bus = s.bus := rfl
@[simp] theorem offerPair_heads (cause : PairCause) (before : PairState) (s : State) : (offerPair cause before s).heads = s.heads := rfl
@[simp] theorem offerPair_pair (cause : PairCause) (before : PairState) (s : State) : (offerPair cause before s).pair = s.pair := rfl
@[simp] theorem offerPair_mode (cause : PairCause) (before : PairState) (s : State) : (offerPair cause before s).mode = s.mode := rfl
@[simp] theorem offerPair_timing (cause : PairCause) (before : PairState) (s : State) : (offerPair cause before s).timing = s.timing := rfl
@[simp] theorem offerPair_link (cause : PairCause) (before : PairState) (s : State) : (offerPair cause before s).link = offerLink (pairNotice s cause before) s.link := rfl
@[simp] theorem offerPair_devices (cause : PairCause) (before : PairState) (s : State) : (offerPair cause before s).devices = s.devices := rfl
@[simp] theorem offerPair_heard (cause : PairCause) (before : PairState) (s : State) : (offerPair cause before s).heard = s.heard := rfl
@[simp] theorem offerPair_now (cause : PairCause) (before : PairState) (s : State) : (offerPair cause before s).now = s.now := rfl
@[simp] theorem offerPair_pending (cause : PairCause) (before : PairState) (s : State) : (offerPair cause before s).pending = s.pending := rfl

@[simp] theorem startFrame_map (start : Nat) (s : State) : (startFrame start s).map = s.map := rfl
@[simp] theorem startFrame_zones (start : Nat) (s : State) : (startFrame start s).zones = s.zones := rfl
@[simp] theorem startFrame_alarmRequests (start : Nat) (s : State) : (startFrame start s).alarmRequests = s.alarmRequests := rfl
@[simp] theorem startFrame_scanner (start : Nat) (s : State) : (startFrame start s).scanner = s.scanner := rfl
@[simp] theorem startFrame_exits (start : Nat) (s : State) : (startFrame start s).exits = s.exits := rfl
@[simp] theorem startFrame_engine (start : Nat) (s : State) : (startFrame start s).engine = s.engine := rfl
@[simp] theorem startFrame_selector (start : Nat) (s : State) : (startFrame start s).selector = s.selector := rfl
@[simp] theorem startFrame_queue (start : Nat) (s : State) : (startFrame start s).queue = clearHeld s.queue := rfl
@[simp] theorem startFrame_heads (start : Nat) (s : State) : (startFrame start s).heads = s.heads := rfl
@[simp] theorem startFrame_pair (start : Nat) (s : State) : (startFrame start s).pair = s.pair := rfl
@[simp] theorem startFrame_mode (start : Nat) (s : State) : (startFrame start s).mode = s.mode := rfl
@[simp] theorem startFrame_timing (start : Nat) (s : State) : (startFrame start s).timing = s.timing := rfl
@[simp] theorem startFrame_link (start : Nat) (s : State) : (startFrame start s).link = s.link := rfl
@[simp] theorem startFrame_devices (start : Nat) (s : State) : (startFrame start s).devices = s.devices := rfl
@[simp] theorem startFrame_heard (start : Nat) (s : State) : (startFrame start s).heard = s.heard := rfl
@[simp] theorem startFrame_now (start : Nat) (s : State) : (startFrame start s).now = s.now := rfl
@[simp] theorem startFrame_pending (start : Nat) (s : State) : (startFrame start s).pending = s.pending := rfl

@[simp] theorem tick_map (s : State) : (tick s).map = s.map := rfl
@[simp] theorem tick_zones (s : State) : (tick s).zones = s.zones := rfl
@[simp] theorem tick_alarmRequests (s : State) : (tick s).alarmRequests = s.alarmRequests := rfl
@[simp] theorem tick_scanner (s : State) : (tick s).scanner = s.scanner := rfl
@[simp] theorem tick_exits (s : State) : (tick s).exits = s.exits := rfl
@[simp] theorem tick_engine (s : State) : (tick s).engine = s.engine := rfl
@[simp] theorem tick_selector (s : State) : (tick s).selector = s.selector := rfl
@[simp] theorem tick_queue (s : State) : (tick s).queue = s.queue := rfl
@[simp] theorem tick_bus (s : State) : (tick s).bus = s.bus := rfl
@[simp] theorem tick_heads (s : State) : (tick s).heads = s.heads := rfl
@[simp] theorem tick_pair (s : State) : (tick s).pair = s.pair := rfl
@[simp] theorem tick_mode (s : State) : (tick s).mode = s.mode := rfl
@[simp] theorem tick_timing (s : State) : (tick s).timing = s.timing := rfl
@[simp] theorem tick_link (s : State) : (tick s).link = s.link := rfl
@[simp] theorem tick_devices (s : State) : (tick s).devices = s.devices := rfl
@[simp] theorem tick_heard (s : State) : (tick s).heard = s.heard := rfl
@[simp] theorem tick_now (s : State) : (tick s).now = s.now + 1 := rfl
@[simp] theorem tick_pending (s : State) : (tick s).pending = s.pending := rfl

end Sys2Proof.Machine
end

