-- ==== Sys2Proof/Laws/Tables.lean ====
section
/-! SUPPORT. The laws of the shared tables: reading what was written, tables given by a function, steps over all indices,
and searches. -/

namespace Sys2Proof.Machine

variable {α σ : Type} {n : Nat}

/-! ## Reading and writing -/

theorem look_eq (v : Vector α n) (i : Fin n) : look v i = v[i.val] := rfl

@[simp] theorem look_store_same (v : Vector α n) (i : Fin n) (a : α) : look (store v i a) i = a := by
  simp [look_eq, store]

@[simp] theorem look_store_ne (v : Vector α n) {i j : Fin n} (a : α) (h : i ≠ j) :
    look (store v i a) j = look v j := by
  simp only [look_eq, store]
  exact Vector.getElem_set_ne _ _ (by simpa [Fin.ext_iff] using h)

theorem look_store (v : Vector α n) (i j : Fin n) (a : α) :
    look (store v i a) j = if i = j then a else look v j := by
  split
  · next h => subst h; simp
  · next h => simp [h]

theorem look_change (v : Vector α n) (i j : Fin n) (f : α → α) :
    look (change v i f) j = if i = j then f (look v j) else look v j := by
  unfold change; rw [look_store]; split <;> simp_all

@[simp] theorem look_tabulate (f : Fin n → α) (i : Fin n) : look (tabulate n f) i = f i := by
  simp [look_eq, tabulate]

@[simp] theorem look_replicate (a : α) (i : Fin n) : look (Vector.replicate n a) i = a := by
  simp [look_eq]

/-- Two tables that read alike at every index are equal. -/
theorem table_ext {v w : Vector α n} (h : ∀ i, look v i = look w i) : v = w := by
  ext i hi
  have := h ⟨i, hi⟩
  simpa [look_eq] using this

/-- Writing back what an index holds changes nothing. -/
@[simp] theorem store_look (v : Vector α n) (i : Fin n) : store v i (look v i) = v := by
  apply table_ext; intro j; rw [look_store]; split
  · next h => rw [h]
  · rfl

/-! ## Named records of the state -/

@[simp] theorem headOf_setHead_same (h : HeadId) (r : Head) (s : State) : headOf (setHead h r s) h = r := by
  simp [headOf]

@[simp] theorem headOf_setHead_ne {h k : HeadId} (r : Head) (s : State) (hk : h ≠ k) :
    headOf (setHead h r s) k = headOf s k := by
  simp [headOf, hk]

@[simp] theorem zoneOf_setZoneRt_same (z : ZoneId) (r : ZoneRt) (s : State) : zoneOf (setZoneRt z r s) z = r := by
  simp [zoneOf]

@[simp] theorem zoneOf_setZoneRt_ne {z y : ZoneId} (r : ZoneRt) (s : State) (h : z ≠ y) :
    zoneOf (setZoneRt z r s) y = zoneOf s y := by
  simp [zoneOf, h]

@[simp] theorem exitOf_setExitRt_same (e : ExitId) (r : ExitRt) (s : State) : exitOf (setExitRt e r s) e = r := by
  simp [exitOf]

@[simp] theorem exitOf_setExitRt_ne {e d : ExitId} (r : ExitRt) (s : State) (h : e ≠ d) :
    exitOf (setExitRt e r s) d = exitOf s d := by
  simp [exitOf, h]

@[simp] theorem desiredOf_setDesired_same (h : HeadId) (d : Option Display) (s : State) :
    desiredOf (setDesired h d s) h = d := by
  simp [desiredOf]

@[simp] theorem desiredOf_setDesired_ne {h k : HeadId} (d : Option Display) (s : State) (hk : h ≠ k) :
    desiredOf (setDesired h d s) k = desiredOf s k := by
  simp [desiredOf, hk]

@[simp] theorem placementOf_setPlacement_same (h : HeadId) (r : Placement) (s : State) :
    placementOf (setPlacement h r s) h = r := by
  simp [placementOf]

@[simp] theorem placementOf_setPlacement_ne {h k : HeadId} (r : Placement) (s : State) (hk : h ≠ k) :
    placementOf (setPlacement h r s) k = placementOf s k := by
  simp [placementOf, hk]

/-! ## Steps over all indices -/

/-- What every step keeps, the steps for all indices keep. -/
theorem forEach_induct {P : σ → Prop} (f : Fin n → σ → σ) (s : σ) (h0 : P s) (hs : ∀ i s, P s → P (f i s)) :
    P (forEach n f s) := by
  unfold forEach
  generalize List.finRange n = l
  induction l generalizing s with
  | nil => exact h0
  | cons i l ih => exact ih _ (hs i s h0)

/-- A fold over commands or indices keeps what its step keeps. -/
theorem foldl_induct {β : Type} {P : σ → Prop} (f : σ → β → σ) (l : List β) (s : σ) (h0 : P s)
    (hs : ∀ s b, P s → P (f s b)) : P (l.foldl f s) := by
  induction l generalizing s with
  | nil => exact h0
  | cons b l ih => exact ih _ (hs s b h0)

/-- Steps over all indices, one of which alone acts on the part of the state that a reading shows. -/
theorem forEach_read {β : Type} (f : Fin n → σ → σ) (read : σ → Fin n → β) (hframe : ∀ i j s, i ≠ j → read (f i s) j = read s j)
    (s : σ) (j : Fin n) :
    ∃ t, read t j = read s j ∧ read (forEach n f s) j = read (f j t) j := by
  unfold forEach
  have hj : j ∈ List.finRange n := List.mem_finRange j
  have hnd : (List.finRange n).Nodup := List.nodup_finRange n
  revert hj hnd
  generalize List.finRange n = l
  have untouched : ∀ (l : List (Fin n)) (s : σ), j ∉ l → read (l.foldl (fun s i => f i s) s) j = read s j := by
    intro l
    induction l with
    | nil => intro s _; rfl
    | cons i l ih =>
      intro s hj
      simp only [List.mem_cons, not_or] at hj
      rw [List.foldl_cons, ih _ hj.2, hframe i j s (Ne.symm hj.1)]
  induction l generalizing s with
  | nil => intro hj; simp at hj
  | cons i l ih =>
    intro hj hnd
    simp only [List.nodup_cons] at hnd
    rw [List.foldl_cons]
    by_cases hij : i = j
    · subst hij; exact ⟨s, rfl, untouched l _ hnd.1⟩
    · have hjl : j ∈ l := by simpa [Ne.symm hij] using hj
      obtain ⟨t, ht, hr⟩ := ih (f i s) hjl hnd.2
      exact ⟨t, by rw [ht, hframe i j s hij], hr⟩

/-! ## Searches -/

theorem firstIndex_some {p : Fin n → Bool} {i : Fin n} (h : firstIndex n p = some i) : p i = true :=
  List.find?_some h

theorem firstIndex_none {p : Fin n → Bool} : firstIndex n p = none ↔ ∀ i, p i = false := by
  simp [firstIndex, List.find?_eq_none]

/-- The index found is the lowest that meets the condition. -/
theorem firstIndex_least {p : Fin n → Bool} {i j : Fin n} (h : firstIndex n p = some i) (hj : j < i) : p j = false := by
  unfold firstIndex at h
  obtain ⟨-, as, bs, hl, hall⟩ := List.find?_eq_some_iff_append.mp h
  have hs : (List.finRange n).Pairwise (· < ·) := List.pairwise_lt_finRange n
  have hj' : j ∈ List.finRange n := List.mem_finRange j
  rw [hl] at hs hj'
  rcases List.mem_append.mp hj' with hm | hm
  · simpa using hall j hm
  · rcases List.mem_cons.mp hm with rfl | hm
    · exact absurd hj (lt_irrefl _)
    · have := (List.pairwise_append.mp hs).2.1
      have := (List.pairwise_cons.mp this).1 j hm
      exact absurd hj (not_lt.mpr this.le)

theorem indexOf_eq_some {k : Nat} {i : Fin n} : indexOf n k = some i ↔ i.val = k := by
  unfold indexOf; split <;> simp [Fin.ext_iff, eq_comm]; intro h; have := i.isLt; omega

@[simp] theorem indexOf_val (i : Fin n) : indexOf n i.val = some i := indexOf_eq_some.mpr rfl

theorem indexOf_none {k : Nat} : indexOf n k = none ↔ n ≤ k := by
  unfold indexOf; split <;> simp <;> omega

end Sys2Proof.Machine
end

