-- ==== Sys2Proof/Laws/Blocks.lean ====
section
/-! SUPPORT. What each shared operation can do: the parts of the state that it may change, said once for each, so that a
proof about a command cites these and unfolds nothing. -/

namespace Sys2Proof.Machine

/-! ## Notices and the transmitter -/

theorem beginNext_busy {l : Link} (h : l.sending.isSome) : beginNext l = l := by
  unfold beginNext; split <;> simp_all

/-- The transmitter's choice (R169). -/
theorem beginNext_cases (l : Link) :
    beginNext l = l
    ∨ (∃ r, l.sending = none ∧ l.reply = some r ∧ beginNext l = { l with sending := some (sendingOf r), reply := none })
    ∨ (∃ n rest, l.sending = none ∧ l.reply = none ∧ l.serving = false ∧ l.notices = n :: rest
        ∧ beginNext l = { l with sending := some (sendingOf (noticeFrame n)), notices := rest }) := by
  unfold beginNext
  split
  · exact .inl rfl
  · split
    · exact .inr (.inl ⟨_, ‹_›, ‹_›, rfl⟩)
    · split
      · exact .inl rfl
      · split
        · next _ hs _ hr hv _ n rest hn => exact .inr (.inr ⟨n, rest, hs, hr, by simpa using hv, hn, rfl⟩)
        · exact .inl rfl

/-- The transmitter moves frames alone: it leaves everything else of the link. -/
theorem beginNext_frame (l : Link) :
    ∃ x r q, beginNext l = { l with sending := x, reply := r, notices := q } := by
  rcases beginNext_cases l with h | ⟨r, -, -, h⟩ | ⟨n, rest, -, -, -, -, h⟩
  · exact ⟨_, _, _, h⟩
  · exact ⟨_, _, _, h⟩
  · exact ⟨_, _, _, h⟩

@[simp] theorem beginNext_serving (l : Link) : (beginNext l).serving = l.serving := by
  obtain ⟨x, r, q, h⟩ := beginNext_frame l; rw [h]

@[simp] theorem beginNext_buffer (l : Link) : (beginNext l).buffer = l.buffer := by
  obtain ⟨x, r, q, h⟩ := beginNext_frame l; rw [h]

@[simp] theorem beginNext_lossMark (l : Link) : (beginNext l).lossMark = l.lossMark := by
  obtain ⟨x, r, q, h⟩ := beginNext_frame l; rw [h]

@[simp] theorem beginNext_discarded (l : Link) : (beginNext l).discarded = l.discarded := by
  obtain ⟨x, r, q, h⟩ := beginNext_frame l; rw [h]

@[simp] theorem beginNext_filter (l : Link) : (beginNext l).filter = l.filter := by
  obtain ⟨x, r, q, h⟩ := beginNext_frame l; rw [h]

/-- An offered notice may move frames and set the loss mark (R167, R169). -/
theorem offerLink_frame (n : Notice) (l : Link) :
    ∃ x r q m, offerLink n l = { l with sending := x, reply := r, notices := q, lossMark := m } := by
  unfold offerLink
  split
  · exact ⟨_, _, _, _, rfl⟩
  · split
    · exact ⟨_, _, _, _, rfl⟩
    · obtain ⟨x, r, q, h⟩ := beginNext_frame { l with notices := l.notices ++ [n] }
      exact ⟨x, r, q, _, h⟩

@[simp] theorem offerLink_serving (n : Notice) (l : Link) : (offerLink n l).serving = l.serving := by
  obtain ⟨x, r, q, m, h⟩ := offerLink_frame n l; rw [h]

@[simp] theorem offerLink_buffer (n : Notice) (l : Link) : (offerLink n l).buffer = l.buffer := by
  obtain ⟨x, r, q, m, h⟩ := offerLink_frame n l; rw [h]

@[simp] theorem offerLink_discarded (n : Notice) (l : Link) : (offerLink n l).discarded = l.discarded := by
  obtain ⟨x, r, q, m, h⟩ := offerLink_frame n l; rw [h]

@[simp] theorem offerLink_filter (n : Notice) (l : Link) : (offerLink n l).filter = l.filter := by
  obtain ⟨x, r, q, m, h⟩ := offerLink_frame n l; rw [h]

/-- While a request is in service no notice leaves the queue, so what is on the line and in the reply slot stays (R169). -/
theorem offerLink_inService {l : Link} (n : Notice) (h : l.serving = true) (hr : l.reply = none) :
    (offerLink n l).sending = l.sending ∧ (offerLink n l).reply = none := by
  unfold offerLink
  split
  · exact ⟨rfl, hr⟩
  · split
    · exact ⟨rfl, hr⟩
    · unfold beginNext
      cases hs : l.sending <;> simp_all

theorem offerAll_nil (l : Link) : offerAll [] l = l := rfl
theorem offerAll_cons (n : Notice) (ns : List Notice) (l : Link) : offerAll (n :: ns) l = offerAll ns (offerLink n l) := rfl
theorem offerAll_append (a b : List Notice) (l : Link) : offerAll (a ++ b) l = offerAll b (offerAll a l) :=
  List.foldl_append ..

/-! ## The route engine -/

/-- A change handed over acts on the engine alone (R63, R64). -/
theorem handChange_frame (c : ChangeClass) (s : State) : ∃ e, handChange c s = { s with engine := e } := by
  unfold handChange; split
  · split
    · exact ⟨_, rfl⟩
    · exact ⟨_, rfl⟩
  · exact ⟨_, rfl⟩

/-- Nothing is handed over in SETUP and VALIDATING (R44, R70). -/
theorem handChange_resting {c : ChangeClass} {s : State} (h : routing s = false) : handChange c s = s := by
  unfold handChange; simp [h]

theorem handIf_frame (c : Option ChangeClass) (s : State) : ∃ e, handIf c s = { s with engine := e } := by
  cases c with
  | none => exact ⟨_, rfl⟩
  | some c => exact handChange_frame c s

/-- A change handed over leaves the published table and its digest (R48, R64). -/
theorem handChange_table (c : ChangeClass) (s : State) :
    (handChange c s).engine.table = s.engine.table ∧ (handChange c s).engine.digest = s.engine.digest := by
  unfold handChange markChange; split
  · split
    · exact ⟨rfl, rfl⟩
    · split
      · exact ⟨rfl, rfl⟩
      · exact ⟨rfl, rfl⟩
      · split <;> exact ⟨rfl, rfl⟩
  · exact ⟨rfl, rfl⟩

theorem endSweep_frame (s : State) : ∃ e, endSweep s = { s with engine := e } := by
  unfold endSweep; split
  · simp only; split
    · exact ⟨_, rfl⟩
    · split <;> exact ⟨_, rfl⟩
  · exact ⟨_, rfl⟩

theorem endSelection_frame (s : State) : ∃ e, endSelection s = { s with engine := e } := by
  unfold endSelection; split
  · split <;> exact ⟨_, rfl⟩
  · exact ⟨_, rfl⟩

/-! ## Exits and zones -/

/-- Re-evaluation of an exit acts on its runtime fields, the engine and the link (R40, R43). -/
theorem reevalExit_frame (hand : Bool) (e : ExitId) (s : State) :
    ∃ x g l, reevalExit hand e s = { s with exits := x, engine := g, link := l } := by
  unfold reevalExit; simp only; split
  · split
    · obtain ⟨g, h⟩ := handChange_frame (availabilityClass (availabilityOf s e))
        (offer (exitNotice (setExitRt e { exitOf s e with available := availabilityOf s e } s) e)
          (setExitRt e { exitOf s e with available := availabilityOf s e } s))
      exact ⟨_, _, _, h⟩
    · exact ⟨_, _, _, rfl⟩
  · exact ⟨_, _, _, rfl⟩

/-- What steps that act on exits, engine and link do together, whichever indices they are taken for. -/
theorem forEach_exits {n : Nat} (f : Fin n → State → State)
    (h : ∀ i s, ∃ x g l, f i s = { s with exits := x, engine := g, link := l }) (s : State) :
    ∃ x g l, forEach n f s = { s with exits := x, engine := g, link := l } := by
  refine forEach_induct (P := fun t => ∃ x g l, t = { s with exits := x, engine := g, link := l }) f s ⟨_, _, _, rfl⟩ ?_
  rintro i t ⟨x, g, l, rfl⟩
  obtain ⟨x', g', l', h'⟩ := h i { s with exits := x, engine := g, link := l }
  exact ⟨x', g', l', h'⟩

theorem reevalExits_frame (hand : Bool) (s : State) :
    ∃ x g l, reevalExits hand s = { s with exits := x, engine := g, link := l } :=
  forEach_exits _ (reevalExit_frame hand) s

theorem reevalZoneExits_frame (z : ZoneId) (s : State) :
    ∃ x g l, reevalZoneExits z s = { s with exits := x, engine := g, link := l } :=
  forEach_exits _ (fun e s => by split; exacts [reevalExit_frame true e s, ⟨_, _, _, rfl⟩]) s

theorem takeContact_frame (e : ExitId) (c : ContactState) (s : State) :
    ∃ x g l, takeContact e c s = { s with exits := x, engine := g, link := l } := by
  unfold takeContact
  obtain ⟨x, g, l, h⟩ := reevalExit_frame true e (setExitRt e { exitOf s e with contact := contactOf c, copyDue := false } s)
  exact ⟨x, g, l, h⟩

theorem handContact_frame (p : PositionId) (s : State) :
    ∃ x g l, handContact p s = { s with exits := x, engine := g, link := l } :=
  forEach_exits _ (fun e s => by split; exacts [takeContact_frame _ _ _, ⟨_, _, _, rfl⟩]) s

theorem copyContact_frame (e : ExitId) (s : State) :
    ∃ x g l, copyContact e s = { s with exits := x, engine := g, link := l } := by
  unfold copyContact; split
  · split
    · exact takeContact_frame _ _ _
    · exact ⟨_, _, _, rfl⟩
  · exact ⟨_, _, _, rfl⟩

/-- A scan acts on the scanner by R36 and R37, and through contact changes on exits, engine and link (R38). -/
theorem gateScan_frame (levels : BitVec 32) (s : State) :
    ∃ x g l, gateScan levels s
      = { s with scanner := settleScan (scanRuns levels s.scanner), exits := x, engine := g, link := l } := by
  unfold gateScan; simp only
  have h2 : ∃ x g l, (acceptedOf (scanRuns levels s.scanner)).foldl (fun s p => handContact p s)
      { s with scanner := settleScan (scanRuns levels s.scanner) }
      = { s with scanner := settleScan (scanRuns levels s.scanner), exits := x, engine := g, link := l } := by
    refine foldl_induct
      (P := fun t => ∃ x g l, t = { s with scanner := settleScan (scanRuns levels s.scanner), exits := x, engine := g, link := l })
      (fun s p => handContact p s) _ _ ⟨s.exits, s.engine, s.link, rfl⟩ ?_
    rintro t p ⟨x, g, l, rfl⟩
    obtain ⟨x', g', l', h'⟩ := handContact_frame p
      { s with scanner := settleScan (scanRuns levels s.scanner), exits := x, engine := g, link := l }
    exact ⟨x', g', l', h'⟩
  obtain ⟨x, g, l, h2⟩ := h2
  rw [h2]
  obtain ⟨x', g', l', h3⟩ := forEach_exits copyContact copyContact_frame
    { s with scanner := settleScan (scanRuns levels s.scanner), exits := x, engine := g, link := l }
  exact ⟨x', g', l', h3⟩

/-- An accepted map request clears the validated flag, and re-evaluation acts on exits, engine and link (R11, R40). -/
theorem acceptMap_frame (s : State) :
    ∃ x g l, acceptMap s = { s with map := { s.map with validated := false }, exits := x, engine := g, link := l } := by
  obtain ⟨x, g, l, h⟩ := reevalExits_frame true { s with map := { s.map with validated := false } }
  exact ⟨x, g, l, h⟩

/-- The request for ALARM acts on the requests on their way alone (R34). -/
theorem requestAlarm_frame (z : ZoneId) (s : State) : ∃ a, requestAlarm z s = { s with alarmRequests := a } := by
  unfold requestAlarm; split <;> exact ⟨_, rfl⟩

/-- A state change of a zone acts on its state, on exits, engine and link, and on the requests for ALARM (R33, R34). -/
theorem changeZone_frame (z : ZoneId) (new : ZoneState) (cause : ZoneCause) (s : State) :
    ∃ x g l a, changeZone z new cause s
      = { s with
          zones := store s.zones z { zoneOf s z with state := new }
          exits := x, engine := g, link := l, alarmRequests := a } := by
  unfold changeZone; simp only
  generalize hn : Notice.zone z (zoneOf s z).state new _ cause = n
  obtain ⟨g, hg⟩ := handIf_frame (zoneClass (zoneOf s z).state new)
    (offer n (setZoneRt z { zoneOf s z with state := new } s))
  rw [hg]
  generalize hu : ({ offer n (setZoneRt z { zoneOf s z with state := new } s) with engine := g } : State) = u
  obtain ⟨x, g', l, h⟩ := reevalZoneExits_frame z u
  rw [h]
  obtain ⟨a, ha⟩ := requestAlarm_frame z { u with exits := x, engine := g', link := l }
  refine ⟨x, g', l, if new = .smoke then a else s.alarmRequests, ?_⟩
  split
  · rw [ha, ← hu]; rfl
  · rw [← hu]; rfl

/-! ## Displays -/

/-- A head's recomputation acts on its desired display and the update queue (R81). -/
theorem refreshHead_frame (h : HeadId) (s : State) :
    ∃ d q, refreshHead h s = { s with selector := { s.selector with desired := d }, queue := q } := by
  unfold refreshHead; simp only; split
  · exact ⟨_, _, rfl⟩
  · exact ⟨_, _, rfl⟩

/-- The display of a head does not depend on desired displays and the queue (R72 to R79). -/
theorem displayFor_selector (s : State) (d : Vector (Option Display) 64) (q : List Entry) (h : HeadId) :
    displayFor { s with selector := { s.selector with desired := d }, queue := q } h = displayFor s h := rfl

/-- Recomputation acts on the desired displays and the update queue (R80, R81). -/
theorem recomputeAll_frame (s : State) :
    ∃ d q, recomputeAll s = { s with selector := { s.selector with desired := d }, queue := q } := by
  refine forEach_induct (P := fun t => ∃ d q, t = { s with selector := { s.selector with desired := d }, queue := q }) _ s
    ⟨_, _, rfl⟩ ?_
  rintro h t ⟨d, q, rfl⟩
  split
  · obtain ⟨d', q', h'⟩ := refreshHead_frame h { s with selector := { s.selector with desired := d }, queue := q }
    exact ⟨d', q', h'⟩
  · exact ⟨_, _, rfl⟩

/-- What a recomputation leaves unchanged, as `withDisplays` says it. -/
theorem withDisplays_recomputeAll (s : State) : withDisplays s (recomputeAll s) = s := by
  obtain ⟨d, q, h⟩ := recomputeAll_frame s
  rw [h]; rfl

@[simp] theorem desiredOf_setDesired (h k : HeadId) (d : Option Display) (s : State) :
    desiredOf (setDesired h d s) k = if h = k then d else desiredOf s k := by
  simp [desiredOf, look_store]

/-- What a recomputation of one head does (R81, R90). -/
theorem refreshHead_refreshed (h : HeadId) (s : State) : Refreshed h s.queue s (refreshHead h s) := by
  have same : displayFor (refreshHead h s) h = displayFor s h := by
    obtain ⟨d, q, e⟩ := refreshHead_frame h s; rw [e]; rfl
  have record : headOf (refreshHead h s) h = headOf s h := by
    obtain ⟨d, q, e⟩ := refreshHead_frame h s; rw [e]; rfl
  rw [Refreshed, same, record]
  unfold refreshHead
  by_cases e : desiredOf s h = some (displayFor s h) <;> simp [e]

/-- A recomputation of one head leaves the desired displays of the others. -/
theorem desiredOf_refreshHead_ne {h k : HeadId} (s : State) (n : h ≠ k) : desiredOf (refreshHead h s) k = desiredOf s k := by
  unfold refreshHead; simp only; split
  · rfl
  · simp [n]; rfl

/-- A recomputation of heads one after another, each head once: those with a desired display want the one their inputs
give, and the queue takes the new ones in that order (R80, R81, R90). -/
theorem refreshAll_cases (hs : List HeadId) (once : hs.Nodup) (s t : State)
    (e : t = hs.foldl (fun u h => if (desiredOf u h).isSome then refreshHead h u else u) s) :
    (∀ h, desiredOf t h = if h ∈ hs ∧ (desiredOf s h).isSome then some (displayFor s h) else desiredOf s h)
    ∧ t.queue
      = ((hs.filter fun h => (desiredOf s h).isSome).filter fun h => desiredOf s h != some (displayFor s h)).foldl
          (fun q h => queueDisplay h (headOf s h).confirmed (displayFor s h) q) s.queue := by
  induction hs generalizing s with
  | nil => subst e; simp
  | cons h hs ih =>
    obtain ⟨new, once⟩ := List.nodup_cons.mp once
    rw [List.foldl_cons] at e
    by_cases some? : (desiredOf s h).isSome
    · rw [if_pos some?] at e
      obtain ⟨wants, takes⟩ := ih once _ e
      obtain ⟨own, queue⟩ := refreshHead_refreshed h s
      obtain ⟨d, q, frame⟩ := refreshHead_frame h s
      have display (k : HeadId) : displayFor (refreshHead h s) k = displayFor s k := by rw [frame]; rfl
      have record (k : HeadId) : headOf (refreshHead h s) k = headOf s k := by rw [frame]; rfl
      have other {k : HeadId} (m : k ∈ hs) : desiredOf (refreshHead h s) k = desiredOf s k :=
        desiredOf_refreshHead_ne s fun e => new (e ▸ m)
      simp only [display, record] at own queue wants takes
      refine ⟨fun k => ?_, ?_⟩
      · rw [wants k]
        by_cases hk : h = k
        · subst hk; simp [new, some?, own]
        · simp [desiredOf_refreshHead_ne s hk, Ne.symm hk]
      · have heads : ((hs.filter fun k => (desiredOf (refreshHead h s) k).isSome).filter fun k =>
              desiredOf (refreshHead h s) k != some (displayFor s k))
            = (hs.filter fun k => (desiredOf s k).isSome).filter fun k => desiredOf s k != some (displayFor s k) := by
          rw [List.filter_filter, List.filter_filter]
          exact List.filter_congr fun k m => by rw [other m]
        rw [takes, heads, queue, List.filter_cons_of_pos (p := fun k => (desiredOf s k).isSome) some?]
        by_cases same : desiredOf s h = some (displayFor s h) <;> simp [same]
    · rw [if_neg some?] at e
      obtain ⟨wants, takes⟩ := ih once _ e
      refine ⟨fun k => ?_, by rw [takes, List.filter_cons_of_neg (p := fun k => (desiredOf s k).isSome) some?]⟩
      rw [wants k]
      by_cases hk : h = k
      · subst hk; simp [new, some?]
      · simp [Ne.symm hk]

/-- What a recomputation of all heads does (R80, R81, R90). -/
theorem recomputeAll_recomputed (s : State) : Recomputed s (recomputeAll s) := by
  obtain ⟨wants, takes⟩ := refreshAll_cases (List.finRange 64) (List.nodup_finRange 64) s _ rfl
  obtain ⟨d, q, frame⟩ := recomputeAll_frame s
  have display (k : HeadId) : displayFor (recomputeAll s) k = displayFor s k := by rw [frame]; rfl
  have record (k : HeadId) : headOf (recomputeAll s) k = headOf s k := by rw [frame]; rfl
  refine ⟨fun h => ?_, ?_⟩
  · rw [display]
    refine (wants h).trans ?_
    by_cases some? : (desiredOf s h).isSome
    · simp [some?]
    · simpa [some?] using Option.not_isSome_iff_eq_none.mp some?
  · simp only [queueTakes, displayed, display, record]
    exact takes

/-! ## Service of a request -/

/-- A served request in the terms of `Serves`: the part that its effect leaves gives the reply, and only the link is
formed anew. -/
theorem serves_of {i : Instr} {s : State} {f : PanelFrame} {act : State → Served} {code : ReplyCode} {data : List Byte}
    {ns : List Notice} {P : State → Prop} (he : encodeRequest i = some f) (hx : exec i s = .next (takeRequest f act s))
    (hr : Ready s) (hc : (act { s with link := { s.link with serving := true } }).code = code)
    (hd : (if code = .done then (act { s with link := { s.link with serving := true } }).data else []) = data)
    (hl : (act { s with link := { s.link with serving := true } }).state.link = servingLink ns s)
    (hP : ∀ l, P { (act { s with link := { s.link with serving := true } }).state with link := l }) :
    Serves i s code data ns P := by
  subst hc hd
  refine ⟨f, _, he, hx, ?_, ?_⟩
  · simp only [takeRequest, hr.1, if_true, serveWith, formReply, servedLink, ← hl]
    rfl
  · simp only [takeRequest, hr.1, if_true, serveWith, formReply]
    exact hP _

/-- A request that the owning block refuses. -/
theorem refuses_of {i : Instr} {s : State} {f : PanelFrame} {act : State → Served} {code : ReplyCode}
    (he : encodeRequest i = some f) (hx : exec i s = .next (takeRequest f act s)) (hr : Ready s)
    (ha : act { s with link := { s.link with serving := true } }
      = refuse code { s with link := { s.link with serving := true } }) :
    Refuses i s code := by
  refine serves_of he hx hr (by rw [ha]; rfl) (by rw [ha]; simp [refuse]) (by rw [ha]; rfl) ?_
  intro l; rw [ha]; rfl

end Sys2Proof.Machine
end

