-- ==== Sys2Proof/Laws/HeadMoves.lean ====
section
/-! SUPPORT. What the head manager's and the pair unit's operations can do: the head manager acts on head records and
lists, desired displays, the update queue and the link; the pair unit on its own state and the link. -/

namespace Sys2Proof.Machine

/-! ## The head manager -/

/-- The two states differ in what the head manager may change alone. -/
def HeadsMove (s t : State) : Prop :=
  ∃ m d q l, t = { s with heads := m, selector := { s.selector with desired := d }, queue := q, link := l }

theorem HeadsMove.refl (s : State) : HeadsMove s s := ⟨_, _, _, _, rfl⟩

theorem HeadsMove.trans {s t u : State} (h : HeadsMove s t) (k : HeadsMove t u) : HeadsMove s u := by
  obtain ⟨m, d, q, l, rfl⟩ := h
  obtain ⟨m', d', q', l', rfl⟩ := k
  exact ⟨m', d', q', l', rfl⟩

theorem HeadsMove.forEach {n : Nat} (f : Fin n → State → State) (h : ∀ i s, HeadsMove s (f i s)) (s : State) :
    HeadsMove s (forEach n f s) :=
  forEach_induct f s (.refl s) fun i t ht => ht.trans (h i t)

theorem setHead_moves (h : HeadId) (r : Head) (s : State) : HeadsMove s (setHead h r s) := ⟨_, _, _, _, rfl⟩
theorem offer_moves (n : Notice) (s : State) : HeadsMove s (offer n s) := ⟨_, _, _, _, rfl⟩
theorem dropDisplay_moves (h : HeadId) (s : State) : HeadsMove s (dropDisplay h s) := ⟨_, _, _, _, rfl⟩
theorem waitUp_moves (h : HeadId) (s : State) : HeadsMove s (waitUp h s) := ⟨_, _, _, _, rfl⟩
theorem noteFault_moves (h : HeadId) (c : FaultCause) (s : State) : HeadsMove s (noteFault h c s) := ⟨_, _, _, _, rfl⟩
theorem takeStatus_moves (h : HeadId) (st : AckStatus) (s : State) : HeadsMove s (takeStatus h st s) :=
  ⟨_, _, _, _, rfl⟩

theorem refreshHead_moves (h : HeadId) (s : State) : HeadsMove s (refreshHead h s) := by
  obtain ⟨d, q, e⟩ := refreshHead_frame h s
  exact ⟨_, d, q, _, e⟩

theorem refreshIf_moves (c : Bool) (h : HeadId) (s : State) : HeadsMove s (refreshIf c h s) := by
  unfold refreshIf; split
  · exact refreshHead_moves h s
  · exact .refl s

theorem endTest_moves (h : HeadId) (s : State) : HeadsMove s (endTest h s) := by
  unfold endTest; split
  · exact (setHead_moves _ _ _).trans (offer_moves _ _)
  · exact .refl s

theorem enterAbsent_moves (k : Bool) (h : HeadId) (s : State) : HeadsMove s (enterAbsent k h s) :=
  (endTest_moves h s).trans ((setHead_moves _ _ _).trans (dropDisplay_moves _ _))

theorem enterJoining_moves (h : HeadId) (a : Option Abilities) (s : State) : HeadsMove s (enterJoining h a s) :=
  (endTest_moves h s).trans ((setHead_moves _ _ _).trans (dropDisplay_moves _ _))

theorem enterFailed_moves (h : HeadId) (s : State) : HeadsMove s (enterFailed h s) :=
  (endTest_moves h s).trans ((setHead_moves _ _ _).trans (dropDisplay_moves _ _))

theorem enterLoading_moves (h : HeadId) (s : State) : HeadsMove s (enterLoading h s) :=
  (endTest_moves h s).trans (setHead_moves _ _ _)

theorem headFault_moves (h : HeadId) (c : FaultCause) (s : State) : HeadsMove s (headFault h c s) :=
  (setHead_moves _ _ _).trans ((endTest_moves _ _).trans ((offer_moves _ _).trans (refreshHead_moves _ _)))

theorem resyncFault_moves (h : HeadId) (c : FaultCause) (s : State) : HeadsMove s (resyncFault h c s) :=
  (noteFault_moves _ _ _).trans ((enterFailed_moves _ _).trans (offer_moves _ _))

theorem assignAck_moves (h : HeadId) (s : State) : HeadsMove s (assignAck h s) :=
  (enterLoading_moves _ _).trans ((setHead_moves _ _ _).trans (refreshHead_moves _ _))

theorem assignOutcome_moves (h : HeadId) (t : Taken) (s : State) : HeadsMove s (assignOutcome h t s) := by
  cases t with
  | ack => exact assignAck_moves h s
  | wait => exact waitUp_moves h s
  | fault c => exact (noteFault_moves _ _ _).trans (enterAbsent_moves _ _ _)

theorem scriptAck_moves (h : HeadId) (g sc b : Byte) (s : State) : HeadsMove s (scriptAck h g sc b s) := by
  unfold scriptAck; simp only; split
  · exact setHead_moves _ _ _
  · split
    · exact (setHead_moves _ _ _).trans ((offer_moves _ _).trans (refreshHead_moves _ _))
    · exact setHead_moves _ _ _

theorem scriptOutcome_moves (h : HeadId) (g sc b : Byte) (t : Taken) (s : State) :
    HeadsMove s (scriptOutcome h g sc b t s) := by
  cases t with
  | ack => exact scriptAck_moves h g sc b s
  | wait => exact waitUp_moves h s
  | fault c => exact headFault_moves h c s

theorem confirmDisplay_moves (h : HeadId) (d : Option Display) (s : State) : HeadsMove s (confirmDisplay h d s) := by
  cases d with
  | none => exact .refl s
  | some d => exact ⟨_, _, _, _, rfl⟩

theorem testDone_moves (h : HeadId) (st : AckStatus) (s : State) : HeadsMove s (testDone h st s) := by
  unfold testDone; split
  · exact (setHead_moves _ _ _).trans (offer_moves _ _)
  · exact .refl s

theorem servingAck_moves (h : HeadId) (c : BusCommand) (st : AckStatus) (s : State) :
    HeadsMove s (servingAck h c st s) := by
  have h1 : HeadsMove s (takeStatus h st (confirmDisplay h (carriedDisplay c) s)) :=
    (confirmDisplay_moves h (carriedDisplay c) s).trans (takeStatus_moves h st _)
  have h2 : ∀ t, HeadsMove t (if c = .test then testDone h st t else t) := fun t => by
    split; exacts [testDone_moves _ _ _, .refl _]
  have h3 : ∀ (b : Bool) t, HeadsMove t (if b then enterLoading h t else t) := fun b t => by
    split; exacts [enterLoading_moves _ _, .refl _]
  exact h1.trans ((h2 _).trans ((h3 _ _).trans (refreshIf_moves _ h _)))

theorem heldByWait_moves (h : HeadId) (c : BusCommand) (o : Bool) (s : State) : HeadsMove s (heldByWait h c o s) := by
  unfold heldByWait; split
  · split
    · exact .refl s
    · exact ⟨_, _, _, _, rfl⟩
  · exact .refl s

theorem servingOutcome_moves (h : HeadId) (c : BusCommand) (o : Bool) (t : Taken) (s : State) :
    HeadsMove s (servingOutcome h c o t s) := by
  cases t with
  | ack st => exact servingAck_moves h c st s
  | wait => exact (waitUp_moves h s).trans (heldByWait_moves _ _ _ _)
  | fault c => exact headFault_moves h c s

theorem loadingOutcome_moves (h : HeadId) (c : BusCommand) (o : Bool) (t : Taken) (s : State) :
    HeadsMove s (loadingOutcome h c o t s) := by
  cases t with
  | ack st => exact (confirmDisplay_moves _ _ _).trans ((takeStatus_moves _ _ _).trans (refreshIf_moves _ _ _))
  | wait => exact (waitUp_moves h s).trans (heldByWait_moves _ _ _ _)
  | fault c => exact headFault_moves h c s

theorem resyncAck_moves (h : HeadId) (d : Option Display) (st : AckStatus) (s : State) :
    HeadsMove s (resyncAck h d st s) := by
  unfold resyncAck; simp only; split
  · exact (confirmDisplay_moves _ _ _).trans ((takeStatus_moves _ _ _).trans
      ((setHead_moves _ _ _).trans ((offer_moves _ _).trans (refreshHead_moves _ _))))
  · exact (confirmDisplay_moves _ _ _).trans ((takeStatus_moves _ _ _).trans
      ((enterLoading_moves _ _).trans (refreshHead_moves _ _)))

theorem resyncOutcome_moves (h : HeadId) (d : Display) (t : Taken) (s : State) : HeadsMove s (resyncOutcome h d t s) := by
  cases t with
  | ack st => exact resyncAck_moves h (some d) st s
  | wait => exact waitUp_moves h s
  | fault c => exact resyncFault_moves h c s

/-- The outcome of a command of the part's own slot acts through the head manager alone (R113). -/
theorem ownOutcome_moves (h : HeadId) (c : BusCommand) (w : WindowClass) (s : State) :
    HeadsMove s (ownOutcome h c w s) := by
  unfold ownOutcome
  generalize takenOf (headOf s h) w = t
  generalize (headOf s h).state = st
  cases c <;> cases st <;> dsimp only <;> first
    | with_reducible exact assignOutcome_moves _ _ _
    | with_reducible exact scriptOutcome_moves _ _ _ _ _ _
    | with_reducible exact servingOutcome_moves _ _ _ _ _
    | with_reducible exact loadingOutcome_moves _ _ _ _ _
    | with_reducible exact resyncOutcome_moves _ _ _ _
    | with_reducible exact .refl _

theorem observedScript_moves (h : HeadId) (g sc b : Byte) (t : Taken) (s : State) :
    HeadsMove s (observedScript h g sc b t s) := by
  cases t with
  | ack => exact (enterLoading_moves _ _).trans ((refreshHead_moves _ _).trans (scriptAck_moves _ _ _ _ _))
  | wait => exact waitUp_moves h s
  | fault c => unfold observedScript; simp only; split; exacts [headFault_moves _ _ _, noteFault_moves _ _ _]

theorem observedRecovering_moves (h : HeadId) (c : BusCommand) (t : Taken) (s : State) :
    HeadsMove s (observedRecovering h c t s) := by
  cases t with
  | ack st => exact resyncAck_moves _ _ _ _
  | wait => exact waitUp_moves h s
  | fault c => exact noteFault_moves _ _ _

theorem observedAssign_moves (h : HeadId) (t : Taken) (s : State) : HeadsMove s (observedAssign h t s) := by
  cases t with
  | ack => exact assignAck_moves h s
  | wait => exact .refl s
  | fault => exact .refl s

/-- An observed outcome acts through the head manager alone (R144). -/
theorem observedOutcome_moves (h : HeadId) (c : BusCommand) (w : WindowClass) (s : State) :
    HeadsMove s (observedOutcome h c w s) := by
  unfold observedOutcome
  generalize takenOf (headOf s h) w = t
  generalize (headOf s h).state = st
  cases c <;> cases st <;> dsimp only <;> first
    | with_reducible exact assignOutcome_moves _ _ _
    | with_reducible exact observedAssign_moves _ _ _
    | with_reducible exact scriptOutcome_moves _ _ _ _ _ _
    | with_reducible exact observedScript_moves _ _ _ _ _ _
    | with_reducible exact servingOutcome_moves _ _ _ _ _
    | with_reducible exact loadingOutcome_moves _ _ _ _ _
    | with_reducible exact observedRecovering_moves _ _ _ _
    | with_reducible exact resyncOutcome_moves _ _ _ _
    | with_reducible exact .refl _

theorem strangerHeard_moves (serial : Serial) (a : Abilities) (s : State) : HeadsMove s (strangerHeard serial a s) := by
  unfold strangerHeard; simp only; split
  · exact ⟨_, _, _, _, rfl⟩
  · exact ⟨_, _, _, _, rfl⟩

/-- An announcement acts through the head manager alone (R119). -/
theorem announce_moves (serial : Serial) (a : Abilities) (s : State) : HeadsMove s (announce serial a s) := by
  unfold announce; split
  · unfold enrolFaulty; split
    · exact .refl s
    · exact ⟨_, _, _, _, rfl⟩
  · unfold acceptedAnnouncement; split
    · exact strangerHeard_moves _ _ _
    · split
      · split
        · exact setHead_moves _ _ _
        · unfold failedAnnounces; simp only; split
          · exact setHead_moves _ _ _
          · exact (setHead_moves _ _ _).trans (offer_moves _ _)
        · exact enterJoining_moves _ _ _
      · exact .refl s

/-- A library edit tells the head manager, head by head (R84, R123). -/
theorem reloadHead_moves (h : HeadId) (s : State) : HeadsMove s (reloadHead h s) := by
  unfold reloadHead; split
  · exact (enterLoading_moves h s).trans (refreshHead_moves h _)
  · exact setHead_moves h _ s

/-- RESTART BUS and an observed RELEASE ALL empty the head manager (R115, R143). -/
theorem releaseHeads_moves (s : State) : HeadsMove s (releaseHeads s) := by
  have h := HeadsMove.forEach (n := 64) _ (enterAbsent_moves false) s
  unfold releaseHeads
  generalize forEach 64 (enterAbsent false) s = t at h ⊢
  exact h.trans ⟨_, _, _, _, rfl⟩

/-! ## The pair unit -/

/-- The two states differ in the pair unit and the link alone. -/
def PairMove (s t : State) : Prop := ∃ p l, t = { s with pair := p, link := l }

theorem PairMove.refl (s : State) : PairMove s s := ⟨_, _, rfl⟩

theorem PairMove.trans {s t u : State} (h : PairMove s t) (k : PairMove t u) : PairMove s u := by
  obtain ⟨p, l, rfl⟩ := h
  obtain ⟨p', l', rfl⟩ := k
  exact ⟨p', l', rfl⟩

theorem giveUpClaim_moves (c : PairCause) (s : State) : PairMove s (giveUpClaim c s) := ⟨_, _, rfl⟩

/-- A partner frame acts on the pair unit and the link alone (R137 to R139). -/
theorem partnerFrame_moves (s : State) : PairMove s (partnerFrame s) := by
  unfold partnerFrame; split
  · exact ⟨_, _, rfl⟩
  · exact ⟨_, _, rfl⟩
  · exact .refl s

/-- An observed partner frame acts on the pair unit, the link and the slot count alone (R137 to R139, R143). -/
theorem observePartner_frame (s : State) : ∃ p l, observePartner s = { countSlot s with pair := p, link := l } := by
  obtain ⟨p, l, e⟩ := partnerFrame_moves s
  exact ⟨p, l, by unfold observePartner; rw [e]; rfl⟩

theorem compareDigests_moves (d : Half) (s : State) : PairMove s (compareDigests d s) := by
  unfold compareDigests; simp only; split
  · exact ⟨_, _, rfl⟩
  · split <;> exact ⟨_, _, rfl⟩

/-- The end of a partner slot acts on the pair unit and the link alone (R146 to R148). -/
theorem partnerOutcome_moves (w : WindowClass) (s : State) : PairMove s (partnerOutcome w s) := by
  have hr : ∀ d m p, PairMove s (partnerReplied d m p s) := fun d m p => .trans ⟨_, _, rfl⟩ (compareDigests_moves d _)
  have hm : PairMove s (missedExchange (raiseLost s)) := by
    unfold raiseLost; simp only; split <;> exact ⟨_, _, rfl⟩
  unfold partnerOutcome; split
  · exact hr _ _ _
  · exact hm

theorem silenceEnds_frame (ph : Bool) (s : State) : ∃ p l n, silenceEnds ph s = { s with pair := p, link := l, now := n } := by
  unfold silenceEnds partnerStuck; split
  · simp only; split
    · split <;> exact ⟨_, _, _, rfl⟩
    · exact ⟨_, _, _, rfl⟩
  · exact ⟨_, _, _, rfl⟩

end Sys2Proof.Machine
end

