-- ==== Sys2Proof/Laws/Closed.lean ====
section
/-! SUPPORT. Closed forms: what a re-evaluation of exits, an accepted map request and a state change of a zone leave, each
as one equation. -/

namespace Sys2Proof.Machine

/-! ## Re-evaluation of exits -/

/-- What the engine takes does not depend on the link. -/
theorem handChange_link (c : ChangeClass) (s : State) (l : Link) :
    (handChange c { s with link := l }).engine = (handChange c s).engine := by
  unfold handChange
  have : routing { s with link := l } = routing s := rfl
  rw [this]
  split
  · dsimp only; split <;> rfl
  · rfl

/-- One exit's re-evaluation with its change handed over, as one equation (R40, R43). -/
theorem reevalExit_eq (e : ExitId) (s : State) :
    reevalExit true e s =
      if (look s.map.exits e).defined && (availabilityOf s e != (exitOf s e).available) then
        let u := setExitRt e { exitOf s e with available := availabilityOf s e } s
        { u with
          engine := (handChange (availabilityClass (availabilityOf s e)) u).engine
          link := offerLink (exitNotice u e) s.link }
      else s := by
  unfold reevalExit
  simp only [Bool.and_eq_true, bne_iff_ne, if_true]
  split
  · obtain ⟨g, h⟩ := handChange_frame (availabilityClass (availabilityOf s e))
      (offer (exitNotice (setExitRt e { exitOf s e with available := availabilityOf s e } s) e)
        (setExitRt e { exitOf s e with available := availabilityOf s e } s))
    have h2 := handChange_link (availabilityClass (availabilityOf s e))
      (setExitRt e { exitOf s e with available := availabilityOf s e } s)
      (offerLink (exitNotice (setExitRt e { exitOf s e with available := availabilityOf s e } s) e) s.link)
    unfold offer at h ⊢
    have h3 : ({ setExitRt e { exitOf s e with available := availabilityOf s e } s with
        link := offerLink (exitNotice (setExitRt e { exitOf s e with available := availabilityOf s e } s) e) s.link } : State)
      = { setExitRt e { exitOf s e with available := availabilityOf s e } s with
        link := offerLink (exitNotice (setExitRt e { exitOf s e with available := availabilityOf s e } s) e)
          (setExitRt e { exitOf s e with available := availabilityOf s e } s).link } := rfl
    rw [h3] at h2
    rw [h] at h2 ⊢
    rw [← h2]
    rfl
  · rfl

/-- Availability is read from an exit's own inputs (R40). -/
theorem availabilityOf_reevaluated (c : ExitId → Bool) (s : State) (e : ExitId) :
    availabilityOf (reevaluated c s) e = availabilityOf s e := by
  have hz : exitZoneState (reevaluated c s) e = exitZoneState s e := rfl
  unfold availabilityOf
  rw [hz]
  simp only [exitOf, reevaluated, look_tabulate]
  split <;> rfl

/-- Re-evaluating one exit more (R40). -/
theorem reevaluated_snoc (c c' : ExitId → Bool) (s : State) (e : ExitId) (hc : ∀ k, c' k = (c k || k == e)) :
    setExitRt e
        (if (look s.map.exits e).defined then { exitOf s e with available := availabilityOf s e } else exitOf s e)
        (reevaluated c s)
      = reevaluated c' s := by
  unfold setExitRt reevaluated
  congr 1
  apply table_ext
  intro k
  rw [look_store]
  split
  · next h =>
    subst h
    simp only [look_tabulate, hc, beq_self_eq_true, Bool.or_true, Bool.and_true]
  · next h =>
    have : (k == e) = false := by simpa using Ne.symm h
    simp only [look_tabulate, hc, this, Bool.or_false]

theorem exitNotice_reevaluated (c c' : ExitId → Bool) (s : State) (e : ExitId) (h : c e = c' e) :
    exitNotice (reevaluated c s) e = exitNotice (reevaluated c' s) e := by
  have hz : exitZoneState (reevaluated c s) e = exitZoneState (reevaluated c' s) e := rfl
  unfold exitNotice
  rw [hz]
  simp only [exitOf, reevaluated, look_tabulate, h]

/-- The part with its engine and link replaced. -/
def patched (g : Engine) (l : Link) (s : State) : State := { s with engine := g, link := l }

/-- The re-evaluation of the chosen exits below an index, in ascending order. -/
theorem reeval_upTo (chosen : ExitId → Bool) (s : State) (n : Nat) :
    ((List.finRange 24).take n).foldl (fun s e => if chosen e then reevalExit true e s else s) s
      = patched
            (engineTakes
              ((((List.finRange 24).take n).filter fun e =>
                  (look s.map.exits e).defined && chosen e && (availabilityOf s e != (exitOf s e).available)).map
                fun e => (availabilityClass (availabilityOf s e), reevaluated (fun k => chosen k && decide (k ≤ e)) s))
              s.engine)
            (offerAll
              ((((List.finRange 24).take n).filter fun e =>
                  (look s.map.exits e).defined && chosen e && (availabilityOf s e != (exitOf s e).available)).map
                (exitNotice (reevaluated chosen s))) s.link)
            (reevaluated (fun k => chosen k && decide (k.val < n)) s) := by
  induction n with
  | zero =>
    have : reevaluated (fun k => chosen k && decide (k.val < 0)) s = s := by
      unfold reevaluated
      have h : (tabulate 24 fun e => if (look s.map.exits e).defined && (chosen e && decide (e.val < 0)) then
        { exitOf s e with available := availabilityOf s e } else exitOf s e) = s.exits := by
        apply table_ext; intro e; simp [exitOf]
      rw [h]
    rw [this]
    rfl
  | succ n ih =>
    by_cases hn : n < 24
    · have htake : (List.finRange 24).take (n + 1) = (List.finRange 24).take n ++ [⟨n, hn⟩] := by
        rw [List.take_add_one]; simp [hn]
      rw [htake, List.foldl_append, ih, List.filter_append, List.map_append, List.map_append]
      set e : ExitId := ⟨n, hn⟩ with he
      have hlt : ∀ k : ExitId, decide (k.val < n + 1) = (decide (k.val < n) || k == e) := by
        intro k
        by_cases hk : k = e
        · subst hk; simp [he]
        · have : k.val ≠ n := fun hh => hk (Fin.ext hh)
          simp only [beq_eq_false_iff_ne.mpr hk, Bool.or_false, decide_eq_decide]; omega
      have hle : ∀ k : ExitId, decide (k ≤ e) = decide (k.val < n + 1) := by
        intro k; simp [he, Fin.le_def]
      have hself : (decide (e.val < n)) = false := by simp [he]
      simp only [List.foldl_cons, List.foldl_nil, List.filter_cons, List.filter_nil]
      generalize hg : engineTakes _ s.engine = g
      generalize hl : offerAll _ s.link = l
      have hdone : (fun k : ExitId => chosen k && decide (k ≤ e)) = fun k => chosen k && decide (k.val < n + 1) := by
        funext k; rw [hle]
      by_cases hc : chosen e
      · rw [if_pos hc, reevalExit_eq]
        have hmap : (patched g l (reevaluated (fun k => chosen k && decide (k.val < n)) s)).map = s.map := rfl
        have hav : availabilityOf (patched g l (reevaluated (fun k => chosen k && decide (k.val < n)) s)) e
            = availabilityOf s e := availabilityOf_reevaluated (fun k => chosen k && decide (k.val < n)) s e
        have hex : exitOf (patched g l (reevaluated (fun k => chosen k && decide (k.val < n)) s)) e
            = exitOf s e := by
          show exitOf (reevaluated (fun k => chosen k && decide (k.val < n)) s) e = exitOf s e
          simp only [exitOf, reevaluated, look_tabulate, hself, Bool.and_false, Bool.false_eq_true, if_false]
        rw [hmap, hav, hex]
        have hstep := reevaluated_snoc (fun k => chosen k && decide (k.val < n)) (fun k => chosen k && decide (k.val < n + 1))
          s e fun k => by
            show (chosen k && decide (k.val < n + 1)) = (chosen k && decide (k.val < n) || k == e)
            rw [hlt]
            rcases eq_or_ne k e with hk | hk
            · rw [hk, hc]; simp
            · rw [beq_eq_false_iff_ne.mpr hk]; simp
        by_cases hd : (look s.map.exits e).defined
        · by_cases hv : availabilityOf s e = (exitOf s e).available
          · simp only [hd, hc, Bool.true_and, bne_self_eq_false, Bool.false_eq_true, hv, if_false, List.map_nil, List.append_nil, hg, hl]
            simp only [hd, if_true, hv] at hstep
            rw [← hstep]
            unfold setExitRt
            have : store (reevaluated (fun k => chosen k && decide (k.val < n)) s).exits e (exitOf s e)
                = (reevaluated (fun k => chosen k && decide (k.val < n)) s).exits := by
              have h2 : exitOf s e = look (reevaluated (fun k => chosen k && decide (k.val < n)) s).exits e := by
                simp only [exitOf, reevaluated, look_tabulate, hself, Bool.and_false, Bool.false_eq_true, if_false]
              rw [h2, store_look]
            rw [show ({ exitOf s e with available := (exitOf s e).available } : ExitRt) = exitOf s e from rfl, this]
          · have hv' : (availabilityOf s e != (exitOf s e).available) = true := by simpa using hv
            simp only [hd, hc, Bool.true_and, hv', if_true, List.map_cons, List.map_nil]
            simp only [hd, if_true] at hstep
            have hset : setExitRt e { exitOf s e with available := availabilityOf s e }
                (patched g l (reevaluated (fun k => chosen k && decide (k.val < n)) s))
                = patched g l (reevaluated (fun k => chosen k && decide (k.val < n + 1)) s) := by
              rw [← hstep]; rfl
            rw [hset, hdone]
            have hnot : exitNotice (patched g l (reevaluated (fun k => chosen k && decide (k.val < n + 1)) s)) e
                = exitNotice (reevaluated chosen s) e :=
              exitNotice_reevaluated (fun k => chosen k && decide (k.val < n + 1)) chosen s e (by simp [he])
            rw [hnot]
            unfold engineTakes offerAll at *
            rw [List.foldl_append, List.foldl_append, hg, hl]
            simp only [List.foldl_cons, List.foldl_nil]
            rw [show (handChange (availabilityClass (availabilityOf s e))
                (patched g l (reevaluated (fun k => chosen k && decide (k.val < n + 1)) s))).engine
              = (handChange (availabilityClass (availabilityOf s e))
                { reevaluated (fun k => chosen k && decide (k.val < n + 1)) s with engine := g }).engine from
              handChange_link _ { reevaluated (fun k => chosen k && decide (k.val < n + 1)) s with engine := g } l]
            rfl
        · simp only [Bool.not_eq_true] at hd
          simp only [hd, Bool.false_and, Bool.false_eq_true, if_false, List.map_nil, List.append_nil, hg, hl]
          have : reevaluated (fun k => chosen k && decide (k.val < n)) s
              = reevaluated (fun k => chosen k && decide (k.val < n + 1)) s := by
            unfold reevaluated
            congr 1; apply table_ext; intro k
            simp only [look_tabulate, hlt]
            by_cases hk : k = e
            · subst hk; simp [hd]
            · simp [hk]
          rw [this]
      · simp only [Bool.not_eq_true] at hc
        simp only [hc, Bool.and_false, Bool.false_and, Bool.false_eq_true, if_false, List.map_nil, List.append_nil, hg, hl]
        have : (fun k : ExitId => chosen k && decide (k.val < n)) = fun k => chosen k && decide (k.val < n + 1) := by
          funext k; rw [hlt]
          rcases eq_or_ne k e with hk | hk
          · rw [hk, hc]; simp
          · rw [beq_eq_false_iff_ne.mpr hk]; simp
        rw [this]
    · have h1 : (List.finRange 24).take (n + 1) = (List.finRange 24).take n := by
        rw [List.take_of_length_le, List.take_of_length_le] <;> simp <;> omega
      have h2 : (fun k : ExitId => chosen k && decide (k.val < n + 1)) = fun k => chosen k && decide (k.val < n) := by
        funext k; have := k.isLt
        rw [decide_eq_true (show k.val < n + 1 by omega), decide_eq_true (show k.val < n by omega)]
      rw [h1, h2, ih]

/-- The re-evaluation of the chosen exits (R40, R43). -/
theorem forEach_reeval (chosen : ExitId → Bool) (s : State) :
    forEach 24 (fun e s => if chosen e then reevalExit true e s else s) s
      = { reevaluated chosen s with
          engine := engineTakes (exitHands chosen s) s.engine, link := offerAll (exitNotices chosen s) s.link } := by
  have h := reeval_upTo chosen s 24
  have ht : (List.finRange 24).take 24 = List.finRange 24 := List.take_of_length_le (by simp)
  have hc : (fun k : ExitId => chosen k && decide (k.val < 24)) = chosen := by
    funext k; simp [k.isLt]
  rw [ht, hc] at h
  exact h

/-- The re-evaluation of every exit (R40). -/
theorem reevalExits_eq (s : State) :
    reevalExits true s
      = { reevaluated everyExit s with
          engine := engineTakes (exitHands everyExit s) s.engine, link := offerAll (exitNotices everyExit s) s.link } :=
  forEach_reeval everyExit s

/-- In SETUP and VALIDATING the engine takes nothing (R44, R70). -/
theorem engineTakes_resting (cs : List (ChangeClass × State)) (g : Engine) (h : ∀ c ∈ cs, routing c.2 = false) :
    engineTakes cs g = g := by
  unfold engineTakes
  induction cs generalizing g with
  | nil => rfl
  | cons c cs ih =>
    rw [List.foldl_cons]
    have hr : routing { c.2 with engine := g } = false := h c (by simp)
    rw [show (handChange c.1 { c.2 with engine := g }).engine = g by rw [handChange_resting hr]]
    exact ih g fun d hd => h d (by simp [hd])

/-- An accepted map request in SETUP (R11, R40). -/
theorem acceptMap_eq (s : State) (h : routing s = false) :
    acceptMap s
      = { mapAccepted s with
          link := offerAll (exitNotices everyExit { s with map := { s.map with validated := false } }) s.link } := by
  unfold acceptMap
  rw [reevalExits_eq, engineTakes_resting]
  · rfl
  · intro c hc
    unfold exitHands at hc
    obtain ⟨e, -, rfl⟩ := List.mem_map.mp hc
    exact h

/-! ## State changes of a zone -/

theorem foldl_congr_inv {σ β : Type} (P : σ → Prop) (f g : σ → β → σ) (l : List β) (s : σ) (h0 : P s)
    (hg : ∀ s b, P s → P (g s b)) (hfg : ∀ s b, P s → f s b = g s b) : l.foldl f s = l.foldl g s := by
  induction l generalizing s with
  | nil => rfl
  | cons b l ih => rw [List.foldl_cons, List.foldl_cons, hfg s b h0]; exact ih _ (hg s b h0)

theorem reevalExit_map (hand : Bool) (e : ExitId) (s : State) : (reevalExit hand e s).map = s.map := by
  obtain ⟨x, g, l, h⟩ := reevalExit_frame hand e s
  rw [h]

/-- The exits of a zone follow it (R33 step 3, R43). -/
theorem reevalZoneExits_eq (z : ZoneId) (s : State) :
    reevalZoneExits z s
      = { reevaluated (inZone s z) s with
          engine := engineTakes (exitHands (inZone s z) s) s.engine
          link := offerAll (exitNotices (inZone s z) s) s.link } := by
  rw [← forEach_reeval]
  unfold reevalZoneExits forEach
  refine foldl_congr_inv (fun t => t.map = s.map) _ _ _ s rfl ?_ ?_
  · intro t e ht
    dsimp only
    split
    · rw [reevalExit_map, ht]
    · exact ht
  · intro t e ht
    have : exitZone t e = exitZone s e := by unfold exitZone; rw [ht]
    simp only [this, inZone, beq_iff_eq]

/-- A state change of a zone as one equation (R33, R34, R40, R43). -/
theorem changeZone_eq (z : ZoneId) (new : ZoneState) (cause : ZoneCause) (s : State) :
    changeZone z new cause s
      = { zoneMoved z new s with link := offerAll (zoneNotices z new cause s) s.link } := by
  unfold changeZone
  simp only
  have hw : setZoneRt z { zoneOf s z with state := new } s = zoneWritten z new s := rfl
  have hlast : (zoneOf (zoneWritten z new s) z).lastReading = (zoneOf s z).lastReading := by
    unfold zoneWritten; simp
  rw [hw, hlast]
  generalize hn : Notice.zone z (zoneOf s z).state new (zoneOf s z).lastReading cause = n
  have hand : handIf (zoneClass (zoneOf s z).state new) (offer n (zoneWritten z new s))
      = patched (engineTakes ((zoneClass (zoneOf s z).state new).toList.map fun c => (c, zoneWritten z new s)) s.engine)
          (offerLink n s.link) (zoneWritten z new s) := by
    cases hc : zoneClass (zoneOf s z).state new with
    | none => rfl
    | some c =>
      obtain ⟨g, hg⟩ := handChange_frame c (offer n (zoneWritten z new s))
      have h2 := handChange_link c (zoneWritten z new s) (offerLink n s.link)
      show handChange c (offer n (zoneWritten z new s)) = _
      have h3 : (handChange c (offer n (zoneWritten z new s))).engine = (handChange c (zoneWritten z new s)).engine := h2
      rw [hg] at h3 ⊢
      show _ = patched (handChange c (zoneWritten z new s)).engine _ _
      rw [← h3]
      rfl
  rw [hand]
  generalize hg : engineTakes ((zoneClass (zoneOf s z).state new).toList.map fun c => (c, zoneWritten z new s)) s.engine = g
  rw [reevalZoneExits_eq]
  have hgs : engineTakes (zoneHands z new s) s.engine = engineTakes (exitHands (inZone s z) (zoneWritten z new s)) g := by
    unfold zoneHands
    rw [← hg]
    unfold engineTakes
    rw [List.foldl_append]
  have hh : engineTakes (exitHands (inZone s z) (patched g (offerLink n s.link) (zoneWritten z new s))) g
      = engineTakes (exitHands (inZone s z) (zoneWritten z new s)) g := by
    unfold engineTakes exitHands
    rw [List.foldl_map, List.foldl_map]
    refine List.foldl_ext _ _ _ fun g' e _ => ?_
    exact handChange_link _ { reevaluated (fun k => inZone s z k && decide (k ≤ e)) (zoneWritten z new s) with engine := g' }
      (offerLink n s.link)
  have hnot : offerAll (zoneNotices z new cause s) s.link
      = offerAll (exitNotices (inZone s z) (zoneWritten z new s)) (offerLink n s.link) := by
    unfold zoneNotices; rw [hn]; rfl
  rw [hnot]
  unfold zoneMoved
  rw [hgs]
  have hin : inZone (patched g (offerLink n s.link) (zoneWritten z new s)) z = inZone s z := rfl
  rw [hin]
  show (if new = .smoke then requestAlarm z { reevaluated (inZone s z) (patched g (offerLink n s.link) (zoneWritten z new s)) with
      engine := engineTakes (exitHands (inZone s z) (patched g (offerLink n s.link) (zoneWritten z new s))) g
      link := offerAll (exitNotices (inZone s z) (zoneWritten z new s)) (offerLink n s.link) }
    else { reevaluated (inZone s z) (patched g (offerLink n s.link) (zoneWritten z new s)) with
      engine := engineTakes (exitHands (inZone s z) (patched g (offerLink n s.link) (zoneWritten z new s))) g
      link := offerAll (exitNotices (inZone s z) (zoneWritten z new s)) (offerLink n s.link) }) = _
  rw [hh]
  unfold requestAlarm alarmAsked
  by_cases h1 : new = .smoke
  · simp only [h1, if_true, true_and]
    by_cases h2 : s.mode = .guard ∧ s.timing.autoAlarm = true
    · rw [if_pos h2]
      exact if_pos h2
    · rw [if_neg h2, List.append_nil]
      exact if_neg h2
  · simp only [h1, if_false, false_and, List.append_nil]
    rfl

end Sys2Proof.Machine
end

