-- ==== Sys2Proof/Laws/Exec.lean ====
section
/-! SUPPORT. The meaning of each command, as one equation each: its shared operation on the part. -/

namespace Sys2Proof.Machine

theorem exec_hardReset (speed : BitVec 2) (pairEn : Bool) (role : Role) (s : State) :
    exec (.hardReset speed pairEn role) s =
      .next (hardReset speed pairEn role s) := rfl

theorem exec_restart (tag : Byte) (s : State) :
    exec (.restart tag) s =
      .next (takeRequest (requestFrame (.restart tag)) restart s) := rfl

theorem exec_arm (tag : Byte) (s : State) :
    exec (.arm tag) s =
      .next (takeRequest (requestFrame (.arm tag)) arm s) := rfl

theorem exec_disarm (tag : Byte) (s : State) :
    exec (.disarm tag) s =
      .next (takeRequest (requestFrame (.disarm tag)) disarm s) := rfl

theorem exec_alarm (tag : Byte) (s : State) :
    exec (.alarm tag) s =
      .next (takeRequest (requestFrame (.alarm tag)) alarm s) := rfl

theorem exec_standDown (tag : Byte) (s : State) :
    exec (.standDown tag) s =
      .next (takeRequest (requestFrame (.standDown tag)) standDown s) := rfl

theorem exec_setTiming (tag setting : Byte) (value : Half) (s : State) :
    exec (.setTiming tag setting value) s =
      .next (takeRequest (requestFrame (.setTiming tag setting value)) (setTiming setting value) s) := rfl

theorem exec_validationComplete (s : State) :
    exec (.validationComplete) s =
      .next (completeValidation s) := rfl

theorem exec_autoAlarmRequest (s : State) :
    exec (.autoAlarmRequest) s =
      .next (autoAlarm s) := rfl

theorem exec_clearMap (tag : Byte) (s : State) :
    exec (.clearMap tag) s =
      .next (takeRequest (requestFrame (.clearMap tag)) clearMap s) := rfl

theorem exec_setPoint (tag action index kind zone : Byte) (s : State) :
    exec (.setPoint tag action index kind zone) s =
      .next (takeRequest (requestFrame (.setPoint tag action index kind zone)) (setPoint action index kind zone) s) := rfl

theorem exec_setAisle (tag action : Byte) (index : Half) (endA endB : Byte) (length : Half) (width bearing passage zone : Byte) (s : State) :
    exec (.setAisle tag action index endA endB length width bearing passage zone) s =
      .next (takeRequest (requestFrame (.setAisle tag action index endA endB length width bearing passage zone)) (setAisle action index endA endB length width bearing passage zone) s) := rfl

theorem exec_setExit (tag action index point : Byte) (bias : Half) (row column : Byte) (s : State) :
    exec (.setExit tag action index point bias row column) s =
      .next (takeRequest (requestFrame (.setExit tag action index point bias row column)) (setExit action index point bias row column) s) := rfl

theorem exec_setZone (tag action index suspect smoke sup : Byte) (s : State) :
    exec (.setZone tag action index suspect smoke sup) s =
      .next (takeRequest (requestFrame (.setZone tag action index suspect smoke sup)) (setZone action index suspect smoke sup) s) := rfl

theorem exec_placeHead (tag index : Byte) (serial : Serial) (point facing enabled : Byte) (s : State) :
    exec (.placeHead tag index serial point facing enabled) s =
      .next (takeRequest (requestFrame (.placeHead tag index serial point facing enabled)) (placeHead index serial point facing enabled) s) := rfl

theorem exec_unplaceHead (tag index : Byte) (s : State) :
    exec (.unplaceHead tag index) s =
      .next (takeRequest (requestFrame (.unplaceHead tag index)) (unplaceHead index) s) := rfl

theorem exec_setScript (tag action script : Byte) (body : List Byte) (s : State) :
    exec (.setScript tag action script body) s =
      .next (takeRequest (requestFrame (.setScript tag action script body)) (setScript action script body) s) := rfl

theorem exec_setKindMap (tag entry script : Byte) (s : State) :
    exec (.setKindMap tag entry script) s =
      .next (takeRequest (requestFrame (.setKindMap tag entry script)) (setKindMap entry script) s) := rfl

theorem exec_blockAisle (tag : Byte) (index : Half) (s : State) :
    exec (.blockAisle tag index) s =
      .next (takeRequest (requestFrame (.blockAisle tag index)) (blockAisle index) s) := rfl

theorem exec_openAisle (tag : Byte) (index : Half) (s : State) :
    exec (.openAisle tag index) s =
      .next (takeRequest (requestFrame (.openAisle tag index)) (openAisle index) s) := rfl

theorem exec_zoneReadings (tag : Byte) (entries : List (Byte × Byte)) (s : State) :
    exec (.zoneReadings tag entries) s =
      .next (takeRequest (requestFrame (.zoneReadings tag entries)) (zoneReadings entries) s) := rfl

theorem exec_confirmZone (tag zone : Byte) (s : State) :
    exec (.confirmZone tag zone) s =
      .next (takeRequest (requestFrame (.confirmZone tag zone)) (confirmZone zone) s) := rfl

theorem exec_confirmTimerExpiry (z : ZoneId) (s : State) :
    exec (.confirmTimerExpiry z) s =
      .next (confirmExpiry z s) := rfl

theorem exec_clearHoldExpiry (z : ZoneId) (s : State) :
    exec (.clearHoldExpiry z) s =
      .next (clearHoldExpiry z s) := rfl

theorem exec_zoneSilenceExpiry (z : ZoneId) (s : State) :
    exec (.zoneSilenceExpiry z) s =
      .next (silenceExpiry z s) := rfl

theorem exec_gateScan (levels : BitVec 32) (s : State) :
    exec (.gateScan levels) s =
      .next (gateScan levels s) := rfl

theorem exec_exitOverride (tag index value : Byte) (s : State) :
    exec (.exitOverride tag index value) s =
      .next (takeRequest (requestFrame (.exitOverride tag index value)) (exitOverride index value) s) := rfl

theorem exec_exitBias (tag index : Byte) (value : Half) (s : State) :
    exec (.exitBias tag index value) s =
      .next (takeRequest (requestFrame (.exitBias tag index value)) (exitBias index value) s) := rfl

theorem exec_sweepEnd (s : State) :
    exec (.sweepEnd) s =
      .next (endSweep s) := rfl

theorem exec_selectionEnd (s : State) :
    exec (.selectionEnd) s =
      .next (endSelection s) := rfl

theorem exec_publication (s : State) :
    exec (.publication) s =
      .next (publish s) := rfl

theorem exec_beat (s : State) :
    exec (.beat) s =
      .next (if mayStartFrame s && !s.bus.releaseAll then sendBeat (nextStart s) s else s) := rfl

theorem exec_releaseAll (s : State) :
    exec (.releaseAll) s =
      .next (if mayStartFrame s && s.bus.releaseAll then sendReleaseAll (nextStart s) s else s) := rfl

theorem exec_enrol (s : State) :
    exec (.enrol) s =
      .next (enrolSlot s) := rfl

theorem exec_partnerSlot (s : State) :
    exec (.partnerSlot) s =
      .next (partnerSlot s) := rfl

theorem exec_updateSlot (k : SlotId) (s : State) :
    exec (.updateSlot k) s =
      .next (updateSlot k s) := rfl

theorem exec_pollSlot (k : SlotId) (s : State) :
    exec (.pollSlot k) s =
      .next (pollSlot k s) := rfl

theorem exec_transactionComplete (window : Window) (s : State) :
    exec (.transactionComplete window) s =
      .next (completeTransaction window s) := rfl

theorem exec_restartBus (tag : Byte) (s : State) :
    exec (.restartBus tag) s =
      .next (takeRequest (requestFrame (.restartBus tag)) restartBus s) := rfl

theorem exec_testHead (tag index : Byte) (s : State) :
    exec (.testHead tag index) s =
      .next (takeRequest (requestFrame (.testHead tag index)) (testHead index) s) := rfl

theorem exec_restoreHead (tag index : Byte) (s : State) :
    exec (.restoreHead tag index) s =
      .next (takeRequest (requestFrame (.restoreHead tag index)) (restoreHead index) s) := rfl

theorem exec_yield (tag : Byte) (s : State) :
    exec (.yield tag) s =
      .next (takeRequest (requestFrame (.yield tag)) yieldBus s) := rfl

theorem exec_isolate (tag : Byte) (s : State) :
    exec (.isolate tag) s =
      .next (takeRequest (requestFrame (.isolate tag)) isolateUnit s) := rfl

theorem exec_yieldingEnd (s : State) :
    exec (.yieldingEnd) s =
      .next (if s.pair.state = .yielding ∧ !s.pair.isolating ∧ s.bus.inFlight.isNone then endYield (reachTime (frameEnd s) s) else s) := rfl

theorem exec_isolateSlotEnd (s : State) :
    exec (.isolateSlotEnd) s =
      .next (if s.pair.isolating ∧ s.bus.inFlight.isNone then enterIsolated s else s) := rfl

theorem exec_pairSilenceExpiry (partnerHold : Bool) (s : State) :
    exec (.pairSilenceExpiry partnerHold) s =
      .next (silenceEnds partnerHold s) := rfl

theorem exec_claimGuardExpiry (partnerHold : Bool) (s : State) :
    exec (.claimGuardExpiry partnerHold) s =
      .next (guardEnds partnerHold s) := rfl

theorem exec_observedBroadcast (f : BusFrame) (window : Window) (s : State) :
    exec (.observedBroadcast f window) s =
      .next (observeBroadcast f window s) := rfl

theorem exec_observedTransaction (f : BusFrame) (window : Window) (s : State) :
    exec (.observedTransaction f window) s =
      .next (observeTransaction f window s) := rfl

theorem exec_partnerQueryObserved (f : BusFrame) (s : State) :
    exec (.partnerQueryObserved f) s =
      .next (observeQuery f s) := rfl

theorem exec_partnerQueryMissed (s : State) :
    exec (.partnerQueryMissed) s =
      .next (if observes s then missedExchange (countSlot s) else s) := rfl

theorem exec_getStatus (tag : Byte) (s : State) :
    exec (.getStatus tag) s =
      .next (takeRequest (requestFrame (.getStatus tag)) getStatus s) := rfl

theorem exec_getPoint (tag index : Byte) (s : State) :
    exec (.getPoint tag index) s =
      .next (takeRequest (requestFrame (.getPoint tag index)) (getPoint index) s) := rfl

theorem exec_getZone (tag index : Byte) (s : State) :
    exec (.getZone tag index) s =
      .next (takeRequest (requestFrame (.getZone tag index)) (getZone index) s) := rfl

theorem exec_getExit (tag index : Byte) (s : State) :
    exec (.getExit tag index) s =
      .next (takeRequest (requestFrame (.getExit tag index)) (getExit index) s) := rfl

theorem exec_getHead (tag index : Byte) (s : State) :
    exec (.getHead tag index) s =
      .next (takeRequest (requestFrame (.getHead tag index)) (getHead index) s) := rfl

theorem exec_getStrangers (tag : Byte) (s : State) :
    exec (.getStrangers tag) s =
      .next (takeRequest (requestFrame (.getStrangers tag)) getStrangers s) := rfl

theorem exec_panelByteReceived (b : Byte) (framingError : Bool) (s : State) :
    exec (.panelByteReceived b framingError) s =
      .next (receiveByte b framingError s) := rfl

theorem exec_transmitFrameEnd (s : State) :
    exec (.transmitFrameEnd) s =
      .next (endTransmit s) := rfl

theorem exec_unknownType (type tag : Byte) (payload : List Byte) (s : State) :
    exec (.unknownType type tag payload) s =
      .next (offerRequest { type := type, tag := tag, payload := payload } s) := rfl

theorem exec_setNoticeFilter (tag : Byte) (mask : Half) (s : State) :
    exec (.setNoticeFilter tag mask) s =
      .next (takeRequest (requestFrame (.setNoticeFilter tag mask)) (setNoticeFilter mask) s) := rfl

theorem exec_clearNoticeLoss (tag : Byte) (s : State) :
    exec (.clearNoticeLoss tag) s =
      .next (takeRequest (requestFrame (.clearNoticeLoss tag)) clearNoticeLoss s) := rfl

end Sys2Proof.Machine
end

