-- ==== Sys2Proof/Laws/Frames.lean ====
section
/-! SUPPORT. The bytes of a sign bus frame: they are read back as the frame, and no byte of a frame is dropped (R173, R175). -/

namespace Sys2Proof

/-- A two-byte field holds its high byte first (R171). -/
theorem halfOf_toNat (hi lo : Byte) : (halfOf hi lo).toNat = hi.toNat * 256 + lo.toNat := by
  unfold halfOf
  rw [BitVec.toNat_append, Nat.shiftLeft_eq, Nat.mul_comm, ← Nat.two_pow_add_eq_or_of_lt lo.isLt]

theorem hiByte_toNat (w : Half) : (hiByte w).toNat = w.toNat / 256 := by
  have := w.isLt
  simp [hiByte, Nat.shiftRight_eq_div_pow]; omega

theorem loByte_toNat (w : Half) : (loByte w).toNat = w.toNat % 256 := by
  simp [loByte]

@[simp] theorem halfOf_bytes (w : Half) : halfOf (hiByte w) (loByte w) = w := by
  apply BitVec.eq_of_toNat_eq; rw [halfOf_toNat, hiByte_toNat, loByte_toNat]; omega

@[simp] theorem hiByte_halfOf (hi lo : Byte) : hiByte (halfOf hi lo) = hi := by
  apply BitVec.eq_of_toNat_eq; rw [hiByte_toNat, halfOf_toNat]; have := lo.isLt; omega

@[simp] theorem loByte_halfOf (hi lo : Byte) : loByte (halfOf hi lo) = lo := by
  apply BitVec.eq_of_toNat_eq; rw [loByte_toNat, halfOf_toNat]; have := lo.isLt; omega

/-- A frame is read back from its bytes (R173). -/
@[simp] theorem BusFrame.ofBytes_bytes (f : BusFrame) : BusFrame.ofBytes f.bytes = some f := by
  simp [BusFrame.bytes, BusFrame.body, BusFrame.ofBytes, halfBytes]

/-- The bytes that are read as a frame are that frame's (R173). -/
theorem BusFrame.bytes_of_ofBytes {b : List Byte} {f : BusFrame} (h : BusFrame.ofBytes b = some f) : f.bytes = b := by
  unfold BusFrame.ofBytes at h
  split at h
  · next a k rest =>
    split at h
    · next hi lo hd =>
      cases h
      have := List.take_append_drop (rest.length - 2) rest
      rw [hd] at this
      simpa [BusFrame.bytes, BusFrame.body, halfBytes] using this
    · cases h
  · cases h

end Sys2Proof
end

