-- ==== Sys2Proof/Laws/PerInstr.lean ====
section
/-! SUPPORT. A family of statements made per command: the type byte of the frame of a well-formed request is listed in
Table 11.2, except for a frame sent under a type of its own. -/

namespace Sys2Proof.Laws

/-- The type byte of a well-formed request is one of Table 11.2 exactly where the command is not UNKNOWN_TYPE. -/
def TypeListed.Statement (i : Instr) : Prop :=
  i.wellFormed = true → ∀ f, encodeRequest i = some f →
    (requestTypes.contains f.type = true ↔ ∀ y t p, i ≠ .unknownType y t p)

/-- A command that is no request has no frame. -/
theorem typeListed_of_none {i : Instr} (h : encodeRequest i = none) : TypeListed.Statement i := by
  intro _ f hf; rw [h] at hf; exact absurd hf (by simp)

/-- A request whose type byte Table 11.2 lists. -/
theorem typeListed_of_some {i : Instr} {ty t : Byte} {p : List Byte} (h : encodeRequest i = some ⟨ty, t, p⟩)
    (hc : requestTypes.contains ty = true) (hn : ∀ y t p, i ≠ .unknownType y t p) : TypeListed.Statement i := by
  intro _ f hf; rw [h] at hf; cases hf; exact ⟨fun _ => hn, fun _ => hc⟩

theorem TypeListed.hardReset (speed : BitVec 2) (pairEn : Bool) (role : Role) :
    TypeListed.Statement (.hardReset speed pairEn role) :=
  typeListed_of_none rfl

theorem TypeListed.restart (tag : Byte) :
    TypeListed.Statement (.restart tag) :=
  typeListed_of_some rfl (by decide) (fun _ _ _ => nofun)

theorem TypeListed.arm (tag : Byte) :
    TypeListed.Statement (.arm tag) :=
  typeListed_of_some rfl (by decide) (fun _ _ _ => nofun)

theorem TypeListed.disarm (tag : Byte) :
    TypeListed.Statement (.disarm tag) :=
  typeListed_of_some rfl (by decide) (fun _ _ _ => nofun)

theorem TypeListed.alarm (tag : Byte) :
    TypeListed.Statement (.alarm tag) :=
  typeListed_of_some rfl (by decide) (fun _ _ _ => nofun)

theorem TypeListed.standDown (tag : Byte) :
    TypeListed.Statement (.standDown tag) :=
  typeListed_of_some rfl (by decide) (fun _ _ _ => nofun)

theorem TypeListed.setTiming (tag setting : Byte) (value : Half) :
    TypeListed.Statement (.setTiming tag setting value) :=
  typeListed_of_some rfl (by decide) (fun _ _ _ => nofun)

theorem TypeListed.validationComplete :
    TypeListed.Statement (.validationComplete) :=
  typeListed_of_none rfl

theorem TypeListed.autoAlarmRequest :
    TypeListed.Statement (.autoAlarmRequest) :=
  typeListed_of_none rfl

theorem TypeListed.clearMap (tag : Byte) :
    TypeListed.Statement (.clearMap tag) :=
  typeListed_of_some rfl (by decide) (fun _ _ _ => nofun)

theorem TypeListed.setPoint (tag action index kind zone : Byte) :
    TypeListed.Statement (.setPoint tag action index kind zone) :=
  typeListed_of_some rfl (by decide) (fun _ _ _ => nofun)

theorem TypeListed.setAisle (tag action : Byte) (index : Half) (endA endB : Byte) (length : Half) (width bearing passage zone : Byte) :
    TypeListed.Statement (.setAisle tag action index endA endB length width bearing passage zone) :=
  typeListed_of_some rfl (by decide) (fun _ _ _ => nofun)

theorem TypeListed.setExit (tag action index point : Byte) (bias : Half) (row column : Byte) :
    TypeListed.Statement (.setExit tag action index point bias row column) :=
  typeListed_of_some rfl (by decide) (fun _ _ _ => nofun)

theorem TypeListed.setZone (tag action index suspect smoke supervised : Byte) :
    TypeListed.Statement (.setZone tag action index suspect smoke supervised) :=
  typeListed_of_some rfl (by decide) (fun _ _ _ => nofun)

theorem TypeListed.placeHead (tag index : Byte) (serial : Serial) (point facing enabled : Byte) :
    TypeListed.Statement (.placeHead tag index serial point facing enabled) :=
  typeListed_of_some rfl (by decide) (fun _ _ _ => nofun)

theorem TypeListed.unplaceHead (tag index : Byte) :
    TypeListed.Statement (.unplaceHead tag index) :=
  typeListed_of_some rfl (by decide) (fun _ _ _ => nofun)

theorem TypeListed.setScript (tag action script : Byte) (body : List Byte) :
    TypeListed.Statement (.setScript tag action script body) :=
  typeListed_of_some rfl (by decide) (fun _ _ _ => nofun)

theorem TypeListed.setKindMap (tag entry script : Byte) :
    TypeListed.Statement (.setKindMap tag entry script) :=
  typeListed_of_some rfl (by decide) (fun _ _ _ => nofun)

theorem TypeListed.blockAisle (tag : Byte) (index : Half) :
    TypeListed.Statement (.blockAisle tag index) :=
  typeListed_of_some rfl (by decide) (fun _ _ _ => nofun)

theorem TypeListed.openAisle (tag : Byte) (index : Half) :
    TypeListed.Statement (.openAisle tag index) :=
  typeListed_of_some rfl (by decide) (fun _ _ _ => nofun)

theorem TypeListed.zoneReadings (tag : Byte) (entries : List (Byte × Byte)) :
    TypeListed.Statement (.zoneReadings tag entries) :=
  typeListed_of_some rfl (by decide) (fun _ _ _ => nofun)

theorem TypeListed.confirmZone (tag zone : Byte) :
    TypeListed.Statement (.confirmZone tag zone) :=
  typeListed_of_some rfl (by decide) (fun _ _ _ => nofun)

theorem TypeListed.confirmTimerExpiry (zone : ZoneId) :
    TypeListed.Statement (.confirmTimerExpiry zone) :=
  typeListed_of_none rfl

theorem TypeListed.clearHoldExpiry (zone : ZoneId) :
    TypeListed.Statement (.clearHoldExpiry zone) :=
  typeListed_of_none rfl

theorem TypeListed.zoneSilenceExpiry (zone : ZoneId) :
    TypeListed.Statement (.zoneSilenceExpiry zone) :=
  typeListed_of_none rfl

theorem TypeListed.gateScan (levels : BitVec 32) :
    TypeListed.Statement (.gateScan levels) :=
  typeListed_of_none rfl

theorem TypeListed.exitOverride (tag index value : Byte) :
    TypeListed.Statement (.exitOverride tag index value) :=
  typeListed_of_some rfl (by decide) (fun _ _ _ => nofun)

theorem TypeListed.exitBias (tag index : Byte) (value : Half) :
    TypeListed.Statement (.exitBias tag index value) :=
  typeListed_of_some rfl (by decide) (fun _ _ _ => nofun)

theorem TypeListed.sweepEnd :
    TypeListed.Statement (.sweepEnd) :=
  typeListed_of_none rfl

theorem TypeListed.selectionEnd :
    TypeListed.Statement (.selectionEnd) :=
  typeListed_of_none rfl

theorem TypeListed.publication :
    TypeListed.Statement (.publication) :=
  typeListed_of_none rfl

theorem TypeListed.beat :
    TypeListed.Statement (.beat) :=
  typeListed_of_none rfl

theorem TypeListed.releaseAll :
    TypeListed.Statement (.releaseAll) :=
  typeListed_of_none rfl

theorem TypeListed.enrol :
    TypeListed.Statement (.enrol) :=
  typeListed_of_none rfl

theorem TypeListed.partnerSlot :
    TypeListed.Statement (.partnerSlot) :=
  typeListed_of_none rfl

theorem TypeListed.updateSlot (slot : SlotId) :
    TypeListed.Statement (.updateSlot slot) :=
  typeListed_of_none rfl

theorem TypeListed.pollSlot (slot : SlotId) :
    TypeListed.Statement (.pollSlot slot) :=
  typeListed_of_none rfl

theorem TypeListed.transactionComplete (window : Window) :
    TypeListed.Statement (.transactionComplete window) :=
  typeListed_of_none rfl

theorem TypeListed.restartBus (tag : Byte) :
    TypeListed.Statement (.restartBus tag) :=
  typeListed_of_some rfl (by decide) (fun _ _ _ => nofun)

theorem TypeListed.testHead (tag index : Byte) :
    TypeListed.Statement (.testHead tag index) :=
  typeListed_of_some rfl (by decide) (fun _ _ _ => nofun)

theorem TypeListed.restoreHead (tag index : Byte) :
    TypeListed.Statement (.restoreHead tag index) :=
  typeListed_of_some rfl (by decide) (fun _ _ _ => nofun)

theorem TypeListed.yield (tag : Byte) :
    TypeListed.Statement (.yield tag) :=
  typeListed_of_some rfl (by decide) (fun _ _ _ => nofun)

theorem TypeListed.isolate (tag : Byte) :
    TypeListed.Statement (.isolate tag) :=
  typeListed_of_some rfl (by decide) (fun _ _ _ => nofun)

theorem TypeListed.yieldingEnd :
    TypeListed.Statement (.yieldingEnd) :=
  typeListed_of_none rfl

theorem TypeListed.isolateSlotEnd :
    TypeListed.Statement (.isolateSlotEnd) :=
  typeListed_of_none rfl

theorem TypeListed.pairSilenceExpiry (partnerHold : Bool) :
    TypeListed.Statement (.pairSilenceExpiry partnerHold) :=
  typeListed_of_none rfl

theorem TypeListed.claimGuardExpiry (partnerHold : Bool) :
    TypeListed.Statement (.claimGuardExpiry partnerHold) :=
  typeListed_of_none rfl

theorem TypeListed.observedBroadcast (frame : BusFrame) (window : Window) :
    TypeListed.Statement (.observedBroadcast frame window) :=
  typeListed_of_none rfl

theorem TypeListed.observedTransaction (frame : BusFrame) (window : Window) :
    TypeListed.Statement (.observedTransaction frame window) :=
  typeListed_of_none rfl

theorem TypeListed.partnerQueryObserved (frame : BusFrame) :
    TypeListed.Statement (.partnerQueryObserved frame) :=
  typeListed_of_none rfl

theorem TypeListed.partnerQueryMissed :
    TypeListed.Statement (.partnerQueryMissed) :=
  typeListed_of_none rfl

theorem TypeListed.getStatus (tag : Byte) :
    TypeListed.Statement (.getStatus tag) :=
  typeListed_of_some rfl (by decide) (fun _ _ _ => nofun)

theorem TypeListed.getPoint (tag index : Byte) :
    TypeListed.Statement (.getPoint tag index) :=
  typeListed_of_some rfl (by decide) (fun _ _ _ => nofun)

theorem TypeListed.getZone (tag index : Byte) :
    TypeListed.Statement (.getZone tag index) :=
  typeListed_of_some rfl (by decide) (fun _ _ _ => nofun)

theorem TypeListed.getExit (tag index : Byte) :
    TypeListed.Statement (.getExit tag index) :=
  typeListed_of_some rfl (by decide) (fun _ _ _ => nofun)

theorem TypeListed.getHead (tag index : Byte) :
    TypeListed.Statement (.getHead tag index) :=
  typeListed_of_some rfl (by decide) (fun _ _ _ => nofun)

theorem TypeListed.getStrangers (tag : Byte) :
    TypeListed.Statement (.getStrangers tag) :=
  typeListed_of_some rfl (by decide) (fun _ _ _ => nofun)

theorem TypeListed.panelByteReceived (byte : Byte) (framingError : Bool) :
    TypeListed.Statement (.panelByteReceived byte framingError) :=
  typeListed_of_none rfl

theorem TypeListed.transmitFrameEnd :
    TypeListed.Statement (.transmitFrameEnd) :=
  typeListed_of_none rfl

theorem TypeListed.unknownType (type tag : Byte) (payload : List Byte) :
    TypeListed.Statement (.unknownType type tag payload) := by
  intro hw f hf
  simp only [Instr.wellFormed, Bool.and_eq_true, Bool.not_eq_true'] at hw
  simp only [encodeRequest, Option.some.injEq] at hf
  subst hf
  exact ⟨fun h => absurd h (by rw [hw.2]; simp), fun h => absurd rfl (h _ _ _)⟩

theorem TypeListed.setNoticeFilter (tag : Byte) (mask : Half) :
    TypeListed.Statement (.setNoticeFilter tag mask) :=
  typeListed_of_some rfl (by decide) (fun _ _ _ => nofun)

theorem TypeListed.clearNoticeLoss (tag : Byte) :
    TypeListed.Statement (.clearNoticeLoss tag) :=
  typeListed_of_some rfl (by decide) (fun _ _ _ => nofun)

end Sys2Proof.Laws
end

