-- ==== Sys2Proof/Tests/Slice0.lean ====
section
/-! SUPPORT. Tests: what the checks of WellFormed refuse, values worked out by hand from the spec, and for every
obligation with hypotheses a state and operands that meet them, clause by clause at the ends of their ranges. -/

namespace Sys2Proof.Tests

open Sys2Proof Sys2Proof.Machine

-- one theorem at a time: their kernel checks together would ask for more threads than the memory limit holds
set_option Elab.async false

/-! ## States to test on -/

/-- The part after a hard reset whose MODE notice has left the line. -/
def idle : State := { State.reset with link := { State.reset.link with sending := none } }

/-- The idle part in a mode. -/
def inMode (m : Mode) : State := { idle with mode := m }

/-- The part after a command. -/
def after (c : Instr) (s : State) : State :=
  match exec c s with
  | .next t => t
  | .fault _ => s
  | .refused _ => s

theorem idle_ready : Ready idle := ⟨rfl, rfl⟩

/-- The panel link of the idle part with a reply that waits and the requests given behind it. -/
def busyLink (waiting : List PanelFrame) : Link :=
  { idle.link with sending := some resetNotice, reply := some ⟨0x80, 1, []⟩, buffer := waiting }

/-- The idle part with that link. -/
def busy (waiting : List PanelFrame) : State := { idle with link := busyLink waiting }

/-- A request that waits: GET STATUS. -/
def waitingRequest : PanelFrame := ⟨0x20, 7, []⟩

/-- A part whose receiver gathers, with the bytes and escape mark given. -/
def gathering (bytes : List Byte) (escape : Bool) : State :=
  { idle with link := { idle.link with hunt := .gathering, gathered := bytes, escape := escape } }

/-! ## WellFormed -/

theorem test_payload_too_long : (Instr.unknownType 0x99 0 (List.replicate 253 0)).wellFormed = false := by decide +kernel
theorem test_payload_longest : (Instr.unknownType 0x99 0 (List.replicate 252 0)).wellFormed = true := by decide +kernel
theorem test_known_type_refused : (Instr.unknownType 0x2F 0 []).wellFormed = false := by decide
theorem test_script_too_long : (Instr.setScript 0 1 1 (List.replicate 251 0)).wellFormed = false := by decide +kernel
theorem test_readings_too_many : (Instr.zoneReadings 0 (List.replicate 127 (0, 0))).wellFormed = false := by decide +kernel
theorem test_window_too_long :
    (Instr.transactionComplete (.frame ⟨1, 0x80, List.replicate 33 0, 0⟩)).wellFormed = false := by decide
theorem test_broadcast_too_long :
    (Instr.observedBroadcast ⟨0, 1, List.replicate 33 0, 0⟩ .idle).wellFormed = false := by decide
theorem test_broadcast_window_too_long :
    (Instr.observedBroadcast ⟨0, 3, [0], 0⟩ (.frame ⟨0, 0x83, List.replicate 33 0, 0⟩)).wellFormed = false := by decide
theorem test_transaction_too_long :
    (Instr.observedTransaction ⟨1, 0x11, List.replicate 33 0, 0⟩ .idle).wellFormed = false := by decide
theorem test_transaction_window_too_long :
    (Instr.observedTransaction ⟨1, 0x15, [], 0⟩ (.frame ⟨1, 0x80, List.replicate 33 0, 0⟩)).wellFormed = false := by decide
theorem test_query_too_long : (Instr.partnerQueryObserved ⟨126, 4, List.replicate 33 0, 0⟩).wellFormed = false := by decide

/-! ## Frame formats (section 11) -/

/-- R175 gives the check value of this CRC over the ASCII digits 1 to 9. -/
theorem test_crc_check_value : crc16 [0x31, 0x32, 0x33, 0x34, 0x35, 0x36, 0x37, 0x38, 0x39] = 0x29B1 := by
  decide +kernel

/-- R47: after hard reset the digest is the CRC of 240 values 0xFFFF. -/
theorem test_reset_digest : crc16 (List.replicate 480 0xFF) = resetDigest := by
  have run (n : Nat) (c : Half) : (List.replicate (60 + n) (0xFF : Byte)).foldl crcByte c
      = (List.replicate n 0xFF).foldl crcByte ((List.replicate 60 0xFF).foldl crcByte c) := by
    rw [← List.replicate_append_replicate, List.foldl_append]
  have h0 : (List.replicate 60 (0xFF : Byte)).foldl crcByte 0xFFFF = 0x9CCA := by decide +kernel
  have h1 : (List.replicate 60 (0xFF : Byte)).foldl crcByte 0x9CCA = 0x41DB := by decide +kernel
  have h2 : (List.replicate 60 (0xFF : Byte)).foldl crcByte 0x41DB = 0xD3EC := by decide +kernel
  have h3 : (List.replicate 60 (0xFF : Byte)).foldl crcByte 0xD3EC = 0xDB36 := by decide +kernel
  have h4 : (List.replicate 60 (0xFF : Byte)).foldl crcByte 0xDB36 = 0xB2F5 := by decide +kernel
  have h5 : (List.replicate 60 (0xFF : Byte)).foldl crcByte 0xB2F5 = 0x5682 := by decide +kernel
  have h6 : (List.replicate 60 (0xFF : Byte)).foldl crcByte 0x5682 = 0x0F93 := by decide +kernel
  have h7 : (List.replicate 60 (0xFF : Byte)).foldl crcByte 0x0F93 = resetDigest := by decide +kernel
  rw [crc16, show 480 = 60 + (60 + (60 + (60 + (60 + (60 + (60 + 60)))))) from rfl, run, h0, run, h1, run, h2, run, h3,
    run, h4, run, h5, run, h6, h7]

/-- R157, R169, R172: the bytes of the first MODE notice. -/
theorem test_reset_notice :
    resetNotice = sendingOf (noticeFrame (.mode none .setup .hardReset .none none)) := by decide +kernel

/-! ## Witnesses: the queue, reset and the panel link -/

theorem witness_StepTakesFrontCommand :
    ({ idle with pending := [.beat, .enrol] } : State).pending = .beat :: [.enrol] ∧ idle.pending = [] := ⟨rfl, rfl⟩

theorem witness_ResetIsSound : ∃ t, exec (.hardReset 3 true .b) State.reset = .next t := ⟨_, rfl⟩

/-- The frame of Table 11.2 for SET AISLE, written out from its layout: aisle 479 from point 0 to point 239, 4000 dm. -/
theorem witness_RequestFramesRoundTrip :
    encodeRequest (.setAisle 5 1 479 0 239 4000 4 15 2 0xFF)
      = some ⟨0x03, 5, [1, 0x01, 0xDF, 0, 239, 0x0F, 0xA0, 4, 15, 2, 0xFF]⟩
    ∧ decodeRequest ⟨0x03, 5, [1, 0x01, 0xDF, 0, 239, 0x0F, 0xA0, 4, 15, 2, 0xFF]⟩
      = .ok (.setAisle 5 1 479 0 239 4000 4 15 2 0xFF) := ⟨by decide, by decide⟩

theorem witness_FrameBytesServeRequest :
    (Instr.getPoint 0x7E 0x7D).wellFormed = true
    ∧ encodeRequest (.getPoint 0x7E 0x7D) = some ⟨0x21, 0x7E, [0x7D]⟩
    ∧ idle.link.gathered = [] ∧ idle.link.escape = false := ⟨rfl, rfl, rfl, rfl⟩

theorem witness_ReceivedByte_hunting :
    idle.link.gathered.length ≤ 256 ∧ idle.link.hunt = .hunting := ⟨by decide, rfl⟩

/-- A gathered frame that forms nothing, one that forms a request, and a full receiver. -/
theorem witness_ReceivedByte_gathering :
    (gathering [] true).link.hunt = .gathering ∧ (gathering [] true).link.escape = true
    ∧ (gathering [] false).link.gathered = [] ∧ (gathering [1, 2, 3] false).link.gathered ≠ []
    ∧ (∀ f : PanelFrame, f.unstuffed ≠ (gathering [1, 2, 3] false).link.gathered)
    ∧ (gathering waitingRequest.unstuffed false).link.gathered = waitingRequest.unstuffed
    ∧ (gathering (List.replicate 256 0) false).link.gathered.length = 256
    ∧ (gathering (List.replicate 255 0) false).link.gathered.length ≤ 256 := by
  refine ⟨rfl, rfl, rfl, by decide, fun f h => ?_, rfl, by decide +kernel, by decide +kernel⟩
  have := congrArg List.length h
  simp [PanelFrame.unstuffed, PanelFrame.body, halfBytes, gathering] at this

theorem witness_RequestsServedOrWait :
    decodeRequest ⟨0x20, 7, []⟩ = .ok (.getStatus 7) ∧ decodeRequest ⟨0x20, 7, [1]⟩ = .error .badLength
    ∧ decodeRequest ⟨0x30, 7, []⟩ = .error .unknownType ∧ Ready idle
    ∧ encodeRequest (.getStatus 7) = some waitingRequest
    ∧ readyToServe (busy []) = false ∧ (busy [waitingRequest]).link.buffer.length < 2
    ∧ readyToServe (busy [waitingRequest, waitingRequest]) = false
    ∧ ¬(busy [waitingRequest, waitingRequest]).link.buffer.length < 2 :=
  ⟨by decide, by decide, by decide, idle_ready, rfl, rfl, by decide, rfl, by decide⟩

theorem witness_ReadyRequestAnswered :
    encodeRequest (.arm 7) = some ⟨0x10, 7, []⟩ ∧ (0x10 : Byte) ≠ 0x2A ∧ Ready idle ∧ idle.link.sending = none
    ∧ Ready State.reset ∧ State.reset.link.sending.isSome := ⟨rfl, by decide, idle_ready, rfl, ⟨rfl, rfl⟩, rfl⟩

theorem witness_TransmitFrameEnd :
    (idle.link.serving = false ∧ idle.link.sending = none)
    ∧ (State.reset.link.sending.isSome ∧ State.reset.link.reply = none ∧ State.reset.link.buffer = []
      ∧ State.reset.link.notices = [])
    ∧ (let s : State := { State.reset with link := { State.reset.link with notices := [.test 0 none] } };
      s.link.sending.isSome ∧ s.link.reply = none ∧ s.link.buffer = [] ∧ s.link.notices = .test 0 none :: [])
    ∧ ((busy []).link.serving = false ∧ (busy []).link.sending.isSome ∧ (busy []).link.reply = some ⟨0x80, 1, []⟩
      ∧ (busy []).link.buffer = [] ∧ (busy [waitingRequest]).link.buffer = [waitingRequest])
    ∧ (busy [waitingRequest, waitingRequest]).link.buffer = waitingRequest :: [waitingRequest] := by decide

/-- Links at each case of R167 and R169: masked, a full queue of 32, the last place of it, and a free transmitter. -/
theorem witness_OfferedNotice :
    (let l : Link := { idle.link with filter := 0x40 };
      l.filter.getLsbD (noticeKind (.test 0 none)).val = true)
    ∧ idle.link.filter.getLsbD (noticeKind (.test 0 none)).val = false
    ∧ 32 ≤ ({ idle.link with notices := List.replicate 32 (.test 0 none) } : Link).notices.length
    ∧ (let l : Link := { State.reset.link with notices := List.replicate 31 (.test 0 none) };
      l.notices.length < 32 ∧ l.sending.isSome)
    ∧ (let l : Link := { idle.link with serving := true };
      l.reply = none ∧ l.serving = true)
    ∧ (idle.link.sending = none ∧ idle.link.reply = none ∧ idle.link.serving = false ∧ idle.link.notices = [])
    ∧ (let l : Link := { idle.link with notices := [.test 1 none] };
      l.sending = none ∧ l.reply = none ∧ l.serving = false ∧ l.notices = .test 1 none :: []) := by decide

theorem witness_FilterAndLossRequests :
    Ready idle ∧ hiByte 0x00FF = 0 ∧ hiByte 0x0100 ≠ 0 := ⟨idle_ready, by decide, by decide⟩

/-! ## Witnesses: modes, validation and settings -/

theorem witness_ArmStartsValidation :
    Ready (inMode .setup) ∧ (inMode .setup).mode = .setup ∧ Ready (inMode .guard) ∧ (inMode .guard).mode ≠ .setup :=
  ⟨idle_ready, rfl, idle_ready, by decide⟩

/-- The smallest map that passes: a junction 0, an EXIT point 239 with exit 23, and aisle 479 between them. -/
def hall : MapStore :=
  { MapStore.reset with
    points := store (store MapStore.reset.points 0 ⟨true, .junction, none⟩) 239 ⟨true, .exit, some 63⟩
    aisles := store MapStore.reset.aisles 479 ⟨true, 0, 239, 100, 4, 4, .both, none, false⟩
    exits := store MapStore.reset.exits 23 ⟨true, 239, 0, some ⟨3, 7⟩⟩
    zones := store MapStore.reset.zones 63 ⟨true, 40, 90, true⟩ }

/-- A part with that map, in a mode. -/
def inHall (m : Mode) : State := { idle with map := hall, mode := m }

/-- Steps over all indices of which one alone does anything. -/
theorem forEach_only {σ : Type} {n : Nat} (f : Fin n → σ → σ) (k : Fin n) (h : ∀ i s, i ≠ k → f i s = s) (s : σ) :
    forEach n f s = f k s := by
  unfold forEach
  have none : ∀ (l : List (Fin n)) (s : σ), k ∉ l → l.foldl (fun s i => f i s) s = s := by
    intro l
    induction l with
    | nil => intro s _; rfl
    | cons i l ih =>
      intro s hk
      simp only [List.mem_cons, not_or] at hk
      rw [List.foldl_cons, h i s (Ne.symm hk.1), ih s hk.2]
  obtain ⟨as, bs, e⟩ := List.append_of_mem (List.mem_finRange k)
  have nd := List.nodup_finRange n
  rw [e] at nd ⊢
  obtain ⟨-, hb, hd⟩ := List.nodup_append.mp nd
  rw [List.foldl_append, List.foldl_cons, none as s fun m => (hd k m k (by simp) rfl),
    none bs _ (List.nodup_cons.mp hb).1]

theorem hall_point (p : PointId) :
    look hall.points p
      = if 239 = p then ⟨true, .exit, some 63⟩ else if 0 = p then ⟨true, .junction, none⟩ else Point.reset := by
  simp [hall, MapStore.reset, look_store]

theorem hall_aisle (x : AisleId) :
    look hall.aisles x = if 479 = x then ⟨true, 0, 239, 100, 4, 4, .both, none, false⟩ else Aisle.reset := by
  simp [hall, MapStore.reset, look_store]

theorem hall_exit (e : ExitId) :
    look hall.exits e = if 23 = e then ⟨true, 239, 0, some ⟨3, 7⟩⟩ else Exit.reset := by
  simp [hall, MapStore.reset, look_store]

theorem hall_zone (z : ZoneId) : look hall.zones z = if 63 = z then ⟨true, 40, 90, true⟩ else Zone.reset := by
  simp [hall, MapStore.reset, look_store]

/-- The points from which the exit of the hall is reached. -/
def bothPoints : Marks := store (store (Vector.replicate 240 false) 239 true) 0 true

theorem hall_marks (marks : Marks) : forEach 480 (markAisle hall) (marks, false) = markAisle hall 479 (marks, false) :=
  forEach_only _ 479 (fun x w h => by simp [markAisle, hall_aisle, Ne.symm h, Aisle.reset]) _

theorem hall_reachable : reachableMarks hall = bothPoints := by
  have start : tabulate 240 (isExitPoint hall) = store (Vector.replicate 240 false) 239 true := by
    apply table_ext; intro p
    simp only [look_tabulate, isExitPoint, pointDefined, hall_point, look_store, look_replicate]
    split
    · rfl
    · split <;> rfl
  have first : markAisle hall 479 (store (Vector.replicate 240 false) 239 true, false) = (bothPoints, true) := by
    simp [markAisle, hall_aisle, markFrom, Passage.fromA, Passage.fromB, bothPoints]
  have second : markAisle hall 479 (bothPoints, false) = (bothPoints, false) := by
    simp [markAisle, hall_aisle, markFrom, Passage.fromA, Passage.fromB, bothPoints]
  rw [reachableMarks, start, Config.sweepLimit, markSweeps, hall_marks, first]
  simp [markSweeps, hall_marks, second]

theorem hall_check2 : check2 hall = none := by
  simp only [check2, failureAt, Option.map_eq_none_iff, firstIndex_none, badAisle, pointDefined, hall_aisle]
  intro x; split
  · simp [hall_point]
  · rfl

theorem hall_check3 : check3 hall = none := by
  have e : firstIndex 24 (badExit hall) = none := by
    simp only [firstIndex_none, badExit, isExitPoint, pointDefined, hall_exit]
    intro e; split
    · simp [hall_point]
    · rfl
  have p : firstIndex 240 (badExitPoint hall) = none := by
    simp only [firstIndex_none, badExitPoint, isExitPoint, pointDefined, hall_point]
    intro p; split
    · subst p; decide +kernel
    · split <;> rfl
  simp [check3, e, p, failureAt]

theorem hall_passes : validate (inHall .validating) = none := by
  have h1 : check1 hall = none := by decide +kernel
  have h4 : check4 hall = none := by
    simp only [check4, failureAt, Option.map_eq_none_iff, firstIndex_none, pointDefined, hall_point, hall_reachable]
    intro p; split
    · subst p; simp [bothPoints]
    · split
      · subst p; simp [bothPoints]
      · rfl
  have h5 : check5 hall = none := by
    have p : firstIndex 240 (fun p => pointDefined hall p && zoneMissing hall (look hall.points p).zone) = none := by
      simp only [firstIndex_none, pointDefined, hall_point]
      intro p; split
      · simp [zoneMissing, hall_zone]
      · split <;> rfl
    have x : firstIndex 480 (fun x => (look hall.aisles x).defined && zoneMissing hall (look hall.aisles x).zone) = none := by
      simp only [firstIndex_none, hall_aisle]
      intro x; split <;> rfl
    simp [check5, p, x, failureAt]
  have h6 : check6 hall = none := by
    simp [check6, failureAt, firstIndex_none, hall, MapStore.reset, Placement.reset]
  have h7 : check7 (inHall .validating).selector = none := by decide
  rw [validate, show (inHall .validating).map = hall from rfl, h1, hall_check2, hall_check3, h4, h5, h6, h7]; rfl

theorem witness_ValidationEnds_passes :
    (inHall .validating).mode = .validating ∧ validate (inHall .validating) = none := ⟨rfl, hall_passes⟩

theorem witness_ValidationEnds_fails :
    (inMode .validating).mode = .validating ∧ validate (inMode .validating) = some ⟨1, .none, 0⟩
    ∧ (inMode .guard).mode ≠ .validating := ⟨rfl, by decide +kernel, by decide⟩

/-- A map that passes, and one with a point and no exit (check 1, index 1). -/
theorem witness_ValidationFindsFirstFailure :
    validate (inHall .validating) = none
    ∧ validate { idle with map := { hall with exits := MapStore.reset.exits } } = some ⟨1, .none, 1⟩ :=
  ⟨hall_passes, by decide +kernel⟩

theorem witness_DisarmEffect :
    (Ready (inMode .guard) ∧ (inMode .guard).mode = .guard ∧ (inMode .guard).engine.run ≠ .publishing)
    ∧ (let s : State :=
        { inMode .guard with
          engine := { idle.engine with run := .publishing, newTable := some (Vector.replicate 240 Route.noRoute) } };
      Ready s ∧ s.mode = .guard ∧ s.engine.run = .publishing
        ∧ s.engine.newTable = some (Vector.replicate 240 Route.noRoute))
    ∧ (inMode .validating).mode = .validating ∧ (inMode .setup).mode = .setup ∧ (inMode .alarm).mode = .alarm :=
  ⟨⟨idle_ready, rfl, by decide⟩, ⟨idle_ready, rfl, rfl, rfl⟩, rfl, rfl, rfl⟩

/-- The part in ALARM with the zone of the hall in a state. -/
def alarmWith (z : ZoneState) : State :=
  { inHall .alarm with zones := store idle.zones 63 { ZoneRt.reset with state := z } }

theorem witness_AlarmAndStandDown :
    (Ready (inMode .guard) ∧ (inMode .guard).mode = .guard)
    ∧ ((inMode .setup).mode ≠ .guard ∧ (inMode .setup).mode ≠ .alarm)
    ∧ (Ready (alarmWith .clearing) ∧ (alarmWith .clearing).mode = .alarm ∧ (alarmWith .clearing).timing.autoAlarm = true
      ∧ (look (alarmWith .clearing).map.zones 63).defined = true ∧ (zoneOf (alarmWith .clearing) 63).state = .clearing
      ∧ (zoneOf (alarmWith .smoke) 63).state = .smoke)
    ∧ ((alarmWith .suspect).timing.autoAlarm = true →
      ∀ z, (look (alarmWith .suspect).map.zones z).defined = true →
        (zoneOf (alarmWith .suspect) z).state ≠ .smoke ∧ (zoneOf (alarmWith .suspect) z).state ≠ .clearing)
    ∧ (idle.alarmRequests = [] ∧ ({ inMode .setup with alarmRequests := [63] } : State).alarmRequests = 63 :: []
      ∧ ({ inMode .guard with alarmRequests := [0, 63] } : State).alarmRequests = 0 :: [63]) := by
  refine ⟨⟨idle_ready, rfl⟩, ⟨by decide, by decide⟩, ⟨idle_ready, rfl, rfl, ?_, ?_, ?_⟩, ?_, rfl, rfl, rfl⟩ <;>
    decide +kernel

/-- Each setting below, at and above its range, AUTO_ALARM at its two values and at 2, and the first unknown setting. -/
theorem witness_SetTimingStores :
    Ready (inMode .setup) ∧ Ready (inMode .guard) ∧ (inMode .setup).mode = .setup ∧ (inMode .guard).mode = .guard
    ∧ ((0, 2, 30) ∈ [(0, 2, 30), (1, 10, 600), (2, 5, 120), (4, 0, 2000), (5, 0, 50), (6, 10, 5000), (7, 600, 5000)])
    ∧ ((1 : Half).toNat < 2 ∧ 2 ≤ (2 : Half).toNat ∧ (30 : Half).toNat ≤ 30 ∧ 30 < (31 : Half).toNat)
    ∧ ((7 : Byte).toNat, 600, 5000)
      ∈ [(0, 2, 30), (1, 10, 600), (2, 5, 120), (4, 0, 2000), (5, 0, 50), (6, 10, 5000), (7, 600, 5000)]
    ∧ ((599 : Half).toNat < 600 ∧ 600 ≤ (600 : Half).toNat ∧ (5000 : Half).toNat ≤ 5000 ∧ 5000 < (5001 : Half).toNat)
    ∧ ((3 : Byte).toNat = 3 ∧ (1 : Half).toNat ≤ 1 ∧ 2 ≤ (2 : Half).toNat ∧ 8 ≤ (8 : Byte).toNat)
    ∧ ((inMode .validating).mode = .validating ∧ (inMode .alarm).mode = .alarm) :=
  ⟨idle_ready, idle_ready, rfl, rfl, by decide, by decide, by decide, by decide, by decide, rfl, rfl⟩

theorem witness_RestartEffect :
    Ready (inMode .alarm) ∧ (inMode .alarm).mode = .alarm ∧ Ready (inHall .validating) ∧ (inHall .validating).mode ≠ .alarm :=
  ⟨idle_ready, rfl, idle_ready, by decide⟩

/-- A change into each mode and out of ALARM. -/
theorem witness_ModeTransitions :
    (∃ t, exec (.arm 1) (inMode .setup) = .next t ∧ t.mode ≠ .setup ∧ t.mode = .validating)
    ∧ (∃ t, exec (.alarm 1) (inMode .guard) = .next t ∧ t.mode ≠ .guard ∧ t.mode = .alarm)
    ∧ (∃ t, exec (.standDown 1) (inMode .alarm) = .next t ∧ t.mode ≠ .alarm ∧ t.mode = .guard)
    ∧ ∃ t, exec (.restart 1) { inMode .setup with map := { MapStore.reset with validated := true } } = .next t
      ∧ t.mode ≠ .setup ∧ t.mode = .guard := by
  refine ⟨⟨_, rfl, ?_⟩, ⟨_, rfl, ?_⟩, ⟨_, rfl, ?_⟩, ⟨_, rfl, ?_⟩⟩ <;> decide +kernel

/-! ## Witnesses: the hall map, scripts and kind map -/

theorem witness_MapFrozenOutsideSetup :
    (∃ t, exec (.blockAisle 1 479) (inHall .alarm) = .next t ∧ (inHall .alarm).mode ≠ .setup
      ∧ (∀ speed pairEn role, Instr.blockAisle 1 479 ≠ .hardReset speed pairEn role))
    ∧ Ready (inMode .guard) ∧ (inMode .guard).mode ≠ .setup
    ∧ scriptLengthOk 1 [1, 1, 0xFF] = true ∧ scriptLengthOk 1 [1, 1] = false := by
  refine ⟨⟨_, rfl, by decide, fun _ _ _ h => nomatch h⟩, idle_ready, ?_, ?_, ?_⟩ <;> decide

/-- Index 239 and 240, zone absent, 63 and 64, the two kinds and the first without a meaning, the first unknown action. -/
theorem witness_SetPoint :
    Ready idle ∧ idle.mode = .setup ∧ 240 ≤ (240 : Byte).toNat ∧ (239 : Byte).toNat = (239 : PointId).val
    ∧ ((1 : Byte) ≠ 0 ∧ 64 ≤ (64 : Byte).toNat ∧ (64 : Byte) ≠ 0xFF)
    ∧ zoneField 63 = some (some 63) ∧ zoneField 0xFF = some none
    ∧ pointKindOf 0 = some .junction ∧ pointKindOf 1 = some .exit ∧ 2 ≤ (2 : Byte).toNat := by
  refine ⟨idle_ready, rfl, ?_⟩; decide

/-- Index 479 and 480, both end points, the ends of length and width, the last bearing and passage and the next. -/
theorem witness_SetAisle :
    Ready idle ∧ idle.mode = .setup ∧ 480 ≤ (480 : Half).toNat ∧ (479 : Half).toNat = (479 : AisleId).val
    ∧ (240 ≤ (240 : Byte).toNat ∧ 64 ≤ (64 : Byte).toNat ∧ (64 : Byte) ≠ 0xFF)
    ∧ ((0 : Byte).toNat = (0 : PointId).val ∧ (239 : Byte).toNat = (239 : PointId).val ∧ zoneField 0 = some (some 0))
    ∧ ((15 : Byte).toNat = (15 : Bearing).val ∧ passageOf 2 = some .bToA ∧ 1 ≤ (1 : Half).toNat
      ∧ (4000 : Half).toNat ≤ 4000 ∧ 1 ≤ (1 : Byte).toNat ∧ (4 : Byte).toNat ≤ 4)
    ∧ (16 ≤ (16 : Byte).toNat ∧ 3 ≤ (3 : Byte).toNat ∧ (0 : Half).toNat = 0 ∧ 4000 < (4001 : Half).toNat
      ∧ (0 : Byte).toNat = 0 ∧ 4 < (5 : Byte).toNat ∧ 2 ≤ (2 : Byte).toNat) := by
  refine ⟨idle_ready, rfl, ?_⟩; decide

/-- Index 23 and 24, contact absent, at row 3 column 7, and half absent, bias 5000 and 5001. -/
theorem witness_SetExit :
    Ready idle ∧ idle.mode = .setup ∧ 24 ≤ (24 : Byte).toNat ∧ (23 : Byte).toNat = (23 : ExitId).val
    ∧ (240 ≤ (240 : Byte).toNat ∧ contactField 4 7 = none ∧ contactField 0xFF 7 = none)
    ∧ ((239 : Byte).toNat = (239 : PointId).val ∧ contactField 3 7 = some (some ⟨3, 7⟩)
      ∧ contactField 0xFF 0xFF = some none)
    ∧ (2 ≤ (2 : Byte).toNat ∧ ¬5000 < (5000 : Half).toNat ∧ 5000 < (5001 : Half).toNat) := by
  refine ⟨idle_ready, rfl, ?_⟩; decide

/-- Index 63 and 64, the supervised flag at its two values and at 2, the first unknown action. -/
theorem witness_SetZone :
    Ready idle ∧ idle.mode = .setup ∧ 64 ≤ (64 : Byte).toNat ∧ (63 : Byte).toNat = (63 : ZoneId).val
    ∧ (2 ≤ (2 : Byte).toNat ∧ (0 : Byte).toNat ≤ 1 ∧ (1 : Byte).toNat ≤ 1) := by
  refine ⟨idle_ready, rfl, ?_⟩; decide

/-- A hall with heads 0 and 63 placed, serials 1001 and 1002. -/
def placed : MapStore :=
  { hall with
    placements :=
      store (store hall.placements 0 ⟨true, 1001, 0, 4, true⟩) 63 ⟨true, 1002, 239, 15, true⟩ }

/-- Head 63 in a state, with abilities. -/
def headIn (st : HeadState) : Head := { Head.reset with state := st, abilities := some ⟨3, 0xFF, 16⟩ }

/-- The idle part with those heads, head 63 in a state. -/
def withHead (st : HeadState) : State :=
  { idle with map := placed, heads := { idle.heads with records := store idle.heads.records 63 (headIn st) } }

theorem witness_PlaceAndUnplaceHead :
    Ready idle ∧ (withHead .absent).mode = .setup ∧ 64 ≤ (64 : Byte).toNat ∧ (63 : Byte).toNat = (63 : HeadId).val
    ∧ (240 ≤ (240 : Byte).toNat ∧ (239 : Byte).toNat = (239 : PointId).val ∧ 16 ≤ (16 : Byte).toNat ∧ 2 ≤ (2 : Byte).toNat
      ∧ (15 : Byte).toNat = (15 : Bearing).val ∧ (1 : Byte).toNat ≤ 1)
    ∧ (headOf (withHead .failed) 63).state ≠ .absent ∧ (headOf (withHead .absent) 63).state = .absent
    ∧ (∃ k : HeadId, k ≠ 63 ∧ (placementOf (withHead .absent) k).defined = true
      ∧ (placementOf (withHead .absent) k).serial = 1001)
    ∧ (¬∃ k : HeadId, k ≠ 63 ∧ (placementOf (withHead .absent) k).defined = true
      ∧ (placementOf (withHead .absent) k).serial = 1002)
    ∧ (placementOf (withHead .serving) 62).defined = false ∧ (placementOf (withHead .serving) 63).defined = true := by
  refine ⟨idle_ready, rfl, ?_⟩; decide +kernel

theorem witness_ClearMap : Ready (inHall .setup) ∧ (inHall .setup).mode = .setup := ⟨idle_ready, rfl⟩

/-- A script of one LIGHT step with the longest hold, one too long, and the longest payload that fits its count of 24. -/
theorem witness_SetScriptAndKindMap :
    Ready idle ∧ idle.mode = .setup ∧ ((1 : Byte) = 1 ∧ ([] : List Byte) ≠ [1])
    ∧ (([1, 2, 3] : List Byte) ≠ [] ∧ ([3] : List Byte).length ≠ 2 * (1 : Byte).toNat)
    ∧ (scriptLengthOk 0 [] = true ∧ 13 ≤ (13 : Byte).toNat ∧ (12 : Byte).toNat = (11 : Fin 12).val + 1)
    ∧ (([8, 0xFF] : List Byte).length = 2 * (1 : Byte).toNat ∧ stepsOf [8, 0xFF] = some [.light 15 15 8]
      ∧ scriptOk [.light 15 15 8] = true)
    ∧ (stepsOf [9, 0xFF] = some [.light 15 15 9] ∧ scriptOk [.light 15 15 9] = false)
    ∧ (scriptOk (List.replicate 24 (.light 0 0 1)) = true ∧ scriptOk (List.replicate 25 (.light 0 0 1)) = false)
    ∧ (scriptOk [.light 0 0 1, .loop 0 15] = true ∧ scriptOk [.light 0 0 1, .loop 0 16] = false
      ∧ scriptOk [.light 0 0 1, .loop 1 2] = false ∧ scriptOk [] = false)
    ∧ 2 ≤ (2 : Byte).toNat
    ∧ (10 ≤ (10 : Byte).toNat ∧ (9 : Byte).toNat = (9 : Fin 10).val ∧ (12 : Byte).toNat = (12 : ScriptId).val) := by
  refine ⟨idle_ready, rfl, ?_⟩; decide +kernel

/-- R123: SET SCRIPT empties the loading record of a RECOVERING head too. -/
theorem test_set_script_empties_record :
    (let s : State :=
      { withHead .recovering with
        heads :=
          { idle.heads with records := store idle.heads.records 63 { headIn .recovering with loaded := [(1, 0)] } } };
      (headOf (after (.setScript 1 1 12 [1, 8, 0xFF]) s) 63).loaded = [] ∧ (headOf s 63).loaded = [(1, 0)]) := by
  decide +kernel

/-- Aisle 479 defined and open, the same blocked, aisle 478 undefined, and the first index out of range. -/
theorem witness_BlockAndOpenAisle :
    Ready (inHall .guard) ∧ 480 ≤ (480 : Half).toNat ∧ (479 : Half).toNat = (479 : AisleId).val
    ∧ (look (inHall .guard).map.aisles 478).defined = false ∧ (look (inHall .guard).map.aisles 479).defined = true
    ∧ (look (inHall .guard).map.aisles 479).blocked = false
    ∧ (let m : MapStore := { hall with aisles := store hall.aisles 479 { look hall.aisles 479 with blocked := true } };
      (look m.aisles 479).blocked = true) := by
  refine ⟨idle_ready, ?_⟩; decide +kernel

/-! ## Witnesses: smoke zones, gate contacts and exits -/

/-- The hall with its zone in each state, and readings on each side of the thresholds 40 and 90. -/
theorem witness_OneReading :
    Ready (inHall .guard) ∧ (63 : Byte).toNat = (63 : ZoneId).val ∧ (look (inHall .guard).map.zones 63).defined = true
    ∧ (look (inHall .guard).map.zones 63).suspect < (look (inHall .guard).map.zones 63).smoke
    ∧ ((39 : Byte).toNat < 40 ∧ ¬(40 : Byte).toNat < 40 ∧ ¬90 ≤ (89 : Byte).toNat ∧ 90 ≤ (90 : Byte).toNat)
    ∧ (zoneOf (alarmWith .clear) 63).state = .clear ∧ (zoneOf (alarmWith .suspect) 63).state = .suspect
    ∧ (zoneOf (alarmWith .smoke) 63).state = .smoke ∧ (zoneOf (alarmWith .clearing) 63).state = .clearing
    ∧ (zoneOf (alarmWith .silent) 63).state = .silent := by
  refine ⟨idle_ready, ?_⟩; decide +kernel

/-- No entry, 65 entries, 64 entries, and entries of a known and an unknown zone. -/
theorem witness_ReadingsInOrder :
    Ready (inHall .guard) ∧ ([] : List (Byte × Byte)).length = 0
    ∧ 64 < (List.replicate 65 ((63, 9) : Byte × Byte)).length
    ∧ 1 ≤ (List.replicate 64 ((63, 9) : Byte × Byte)).length ∧ (List.replicate 64 ((63, 9) : Byte × Byte)).length ≤ 64
    ∧ (∃ z : ZoneId, (63 : Byte).toNat = z.val ∧ (look (inHall .guard).map.zones z).defined = true)
    ∧ (¬∃ z : ZoneId, (64 : Byte).toNat = z.val ∧ (look (inHall .guard).map.zones z).defined = true)
    ∧ (([(63, 9)] ++ [(64, 9)] : List (Byte × Byte)) = [(63, 9), (64, 9)] ∧ ([(63, 9)] : List (Byte × Byte)) ≠ []) := by
  refine ⟨idle_ready, ?_⟩; decide +kernel

/-- The hall in GUARD with the record of its zone given. -/
def zoneWith (r : ZoneRt) : State := { inHall .guard with zones := store idle.zones 63 r }

theorem witness_ConfirmZoneAndTimers :
    Ready (inHall .guard)
    ∧ (∀ z : ZoneId, (62 : Byte).toNat = z.val → (look (inHall .guard).map.zones z).defined = false)
    ∧ ((63 : Byte).toNat = (63 : ZoneId).val ∧ (look (inHall .guard).map.zones 63).defined = true)
    ∧ ((zoneOf (alarmWith .smoke) 63).state = .smoke ∧ (zoneOf (alarmWith .clear) 63).state ≠ .smoke)
    ∧ ((zoneOf (inHall .guard) 63).confirm = none ∧ (zoneOf (inHall .guard) 63).clearHold = none
      ∧ (zoneOf (inHall .guard) 63).silence = none)
    ∧ (let s := zoneWith ⟨.suspect, some 90, some 6000, none, some 20000⟩;
      (zoneOf s 63).confirm = some 6000 ∧ (zoneOf s 63).state = .suspect ∧ (zoneOf s 63).silence = some 20000
        ∧ (look s.map.zones 63).supervised = true)
    ∧ (let s := zoneWith ⟨.clearing, some 9, none, some 60000, none⟩;
      (zoneOf s 63).clearHold = some 60000 ∧ (zoneOf s 63).state = .clearing)
    ∧ (let s : State :=
        { zoneWith ⟨.clear, none, none, none, some 20000⟩ with
          map := { hall with zones := store hall.zones 63 ⟨true, 40, 90, false⟩ } };
      (zoneOf s 63).silence = some 20000 ∧ (look s.map.zones 63).supervised = false
        ∧ zoneOf (after (.zoneSilenceExpiry 63) s) 63 = ⟨.clear, none, none, none, none⟩
        ∧ (after (.zoneSilenceExpiry 63) s).now = 20000) := by
  refine ⟨idle_ready, ?_⟩; decide +kernel

/-- The exit of the hall in a mode, with its runtime fields. -/
def exitIn (m : Mode) (x : ExitRt) : State := { inHall m with exits := store idle.exits 23 x }

/-- The scanner after four scans that read every contact closed, and what the fifth scan finds: a full run of the level
that differs from the contact state, at more positions than one scan accepts. -/
theorem witness_GateScanPositions :
    (let c : Contact := ⟨.unknown, some true, 4, false⟩;
      c.level = some true ∧ min 5 (c.count + 1) = 5 ∧ c.state ≠ .made) := by decide

theorem witness_GateScanExits :
    (let s := exitIn .guard ⟨.auto, 0, .unknown, true, true⟩;
      (look s.map.exits 23).defined = true ∧ (look s.map.exits 23).contact = some ⟨3, 7⟩ ∧ (exitOf s 23).copyDue = true
        ∧ (look s.map.exits 22).defined = false) := by decide +kernel

/-- Exits 22 and 23 of the hall at positions 31 and 1, both read made before; position 31 has waited for a scan. -/
def twoGates : State :=
  let s := exitIn .guard ⟨.auto, 0, .made, true, false⟩
  { s with
    map :=
      { hall with
        exits := store (store hall.exits 22 ⟨true, 239, 0, some ⟨3, 7⟩⟩) 23 ⟨true, 239, 0, some ⟨0, 1⟩⟩ }
    exits := store s.exits 22 ⟨.auto, 0, .made, true, false⟩
    scanner := store (store s.scanner 31 ⟨.made, some false, 5, true⟩) 1 ⟨.made, some false, 5, false⟩ }

/-- R37, R38: the deferred position comes first, and each exit closes with its notice in that order. -/
theorem test_gate_scan_order :
    (let t := after (.gateScan 0) twoGates;
      (exitOf t 22).available = false ∧ (exitOf t 23).available = false
        ∧ t.link.sending.map (fun x => x.frame) = some (noticeFrame (exitNotice t 22))
        ∧ t.link.notices = [exitNotice t 23]) := by decide +kernel

/-- Values FORCED_CLOSED and the first without a meaning, an override that changes nothing and one that closes the exit, a
bias raised to 5000, one over it, and one lowered. -/
theorem witness_ExitRequests :
    (Ready idle ∧ (inHall .setup).mode = .setup ∧ (inHall .validating).mode ≠ .setup)
    ∧ (∀ e : ExitId, (22 : Byte).toNat = e.val → (look (inHall .validating).map.exits e).defined = false)
    ∧ ((23 : Byte).toNat = (23 : ExitId).val ∧ (look (inHall .guard).map.exits 23).defined = true)
    ∧ (3 ≤ (3 : Byte).toNat ∧ overrideOf 2 = some .forcedClosed ∧ overrideOf 1 = some .forcedOpen)
    ∧ (let s := exitIn .guard ⟨.auto, 100, .made, true, false⟩;
      (exitOf s 23).available = true
        ∧ availabilityOf (setExitRt 23 { exitOf s 23 with override := .forcedOpen } s) 23 = (exitOf s 23).available
        ∧ availabilityOf (setExitRt 23 { exitOf s 23 with override := .forcedClosed } s) 23 ≠ (exitOf s 23).available
        ∧ (exitOf s 23).bias < min 5000 (5000 : Half).toNat ∧ 5000 < (5001 : Half).toNat
        ∧ min 5000 (99 : Half).toNat < (exitOf s 23).bias ∧ min 5000 (100 : Half).toNat = (exitOf s 23).bias)
    ∧ (exitOf (exitIn .guard ⟨.forcedClosed, 100, .made, false, false⟩) 23).available = false := by
  refine ⟨⟨idle_ready, rfl, ?_⟩, ?_⟩ <;> decide +kernel

/-- The five rows of Table 2.3, the third and fourth at each state of the zone. -/
theorem test_availability :
    (let s (o : Override) (c : ExitContact) (z : ZoneState) : State :=
        { exitIn .guard ⟨o, 0, c, true, false⟩ with zones := store idle.zones 63 ⟨z, none, none, none, none⟩ };
      availabilityOf (s .forcedOpen .broken .smoke) 23 = true ∧ availabilityOf (s .forcedClosed .made .clear) 23 = false
        ∧ availabilityOf (s .auto .broken .clear) 23 = false
        ∧ [ZoneState.smoke, .clearing].map (fun z => availabilityOf (s .auto .made z) 23) = [false, false]
        ∧ [ZoneState.clear, .suspect, .silent].map (fun z => availabilityOf (s .auto .unknown z) 23) = [true, true, true]
        ∧ availabilityOf { s .auto .none .smoke with map := { hall with points := MapStore.reset.points } } 23 = true) := by
  decide +kernel

/-! ## Witnesses: routes -/

/-- The hall in GUARD with its exit open, at the start of a run. -/
def open_ : State := exitIn .guard ⟨.auto, 0, .made, true, false⟩

/-- The snapshot of that part. -/
def shot : Snapshot := takeSnapshot open_

theorem shot_aisle (x : AisleId) :
    look shot.aisles x = if 479 = x then ⟨true, .both, .clear⟩ else ⟨false, .both, .clear⟩ := by
  simp only [shot, takeSnapshot, look_tabulate, snapAisle, show open_.map = hall from rfl, hall_aisle]
  split <;> rfl

theorem shot_source (e : ExitId) : look shot.sources e = if 23 = e then some ⟨0, 0⟩ else none := by
  simp only [shot, takeSnapshot, look_tabulate, sourcePair, show open_.map = hall from rfl, hall_exit]
  split
  · subst e; simp [open_, exitIn, exitOf]
  · rfl

/-- The pairs a run of the hall starts with. -/
def firstPairs : Pairs := store (Vector.replicate 240 none) 239 (some ⟨0, 0⟩)

theorem hall_pairs : initialPairs hall shot = firstPairs := by
  rw [initialPairs, forEach_only _ 23]
  · simp [shot_source, hall_exit, firstPairs]
  · intro e p h; simp [shot_source, Ne.symm h]

/-- The best pairs of the hall: the EXIT point 239 at its exit, and the junction 100 dm from it. -/
def bestPairs : Pairs := store firstPairs 0 (some ⟨0, 100⟩)

theorem hall_sweep (pairs : Pairs) : sweepTable hall shot pairs = sweepAisle hall shot 479 (pairs, false) :=
  forEach_only _ 479 (fun x w h => by simp [sweepAisle, shot_aisle, Ne.symm h]) _

theorem hall_step : aisleStep hall shot 479 = ⟨0, 100⟩ := by
  simp [aisleStep, hall_aisle, shot_aisle, stepPair, walkCost, widthFactor]

theorem hall_first_sweep : sweepTable hall shot firstPairs = (bestPairs, true) := by
  simp [hall_sweep, sweepAisle, shot_aisle, hall_aisle, hall_step, Passage.fromA, Passage.fromB, relax, firstPairs,
    bestPairs, Pair.add, Pair.betterThan, Pair.better]

theorem hall_last_sweep : sweepTable hall shot bestPairs = (bestPairs, false) := by
  simp [hall_sweep, sweepAisle, shot_aisle, hall_aisle, hall_step, Passage.fromA, Passage.fromB, relax, firstPairs,
    bestPairs, Pair.add, Pair.betterThan, Pair.better]

/-- A run in its sweep `n` with working pairs. -/
def sweepingAt (n : Nat) (pairs : Pairs) (abandoned : Bool) : State :=
  { open_ with
    engine :=
      { open_.engine with
        run := .sweeping, snapshot := some shot, pairs := pairs, sweep := n, abandonMark := abandoned } }

/-- A first sweep reaches the junction, a second changes nothing (R53, R54), at the last sweeps of a run. -/
theorem witness_SweepEnd :
    open_.engine.run ≠ .sweeping
    ∧ (sweepingAt 239 firstPairs false).engine.snapshot = some shot
    ∧ (sweepTable hall shot firstPairs).2 = true ∧ (sweepTable hall shot bestPairs).2 = false
    ∧ (sweepingAt 239 firstPairs false).engine.sweep < 240 ∧ 240 ≤ (sweepingAt 240 firstPairs false).engine.sweep
    ∧ (sweepingAt 1 bestPairs true).engine.abandonMark = true := by
  refine ⟨by decide, rfl, by rw [hall_first_sweep], by rw [hall_last_sweep], ?_, ?_, rfl⟩
  · show 239 < 240; decide
  · show 240 ≤ 240; decide

/-- A run whose sweeping has ended. -/
def selecting : State :=
  { open_ with engine := { open_.engine with run := .selecting, snapshot := some shot, pairs := bestPairs } }

theorem bestPairs_at (p : PointId) :
    look bestPairs p = if 0 = p then some ⟨0, 100⟩ else if 239 = p then some ⟨0, 0⟩ else none := by
  simp [bestPairs, firstPairs, look_store]

theorem hall_walk (p : PointId) (b : Pair) (h : look bestPairs p = some b) : Walk hall shot p b := by
  have last : Walk hall shot 239 ⟨0, 0⟩ := .start 239 ⟨0, 0⟩ (by simp [hall_pairs, firstPairs])
  rw [bestPairs_at] at h
  split at h
  · subst p
    have first := Walk.step (map := hall) (sn := shot) 0 239 479 ⟨0, 0⟩ (by simp [shot_aisle])
      (by simp [walkTo, hall_aisle, shot_aisle, Passage.fromA]) last
    rw [hall_step] at first
    cases h; exact first
  · split at h
    · subst p; cases h; exact last
    · cases h

/-- The run of the hall is sound. -/
theorem selecting_sound : RunSound selecting where
  usable := by
    intro sn x e u
    cases e
    rw [shot_aisle] at u
    rw [show selecting.map = hall from rfl, hall_aisle]
    split at u
    · subst x; rfl
    · cases u
  exits := by
    intro sn e b h u
    cases h
    rw [shot_source] at u
    rw [show selecting.map = hall from rfl, hall_exit]
    split at u
    · subst e; rfl
    · cases u
  attained := by intro sn p b e h; cases e; exact hall_walk p b h
  sources := by
    intro sn p b e h
    cases e
    rw [show selecting.map = hall from rfl, hall_pairs, firstPairs, look_store, look_replicate] at h
    split at h
    · subst p; cases h; exact ⟨⟨0, 0⟩, bestPairs_at 239, by decide⟩
    · cases h
  settled := by intro sn e _ _; cases e; exact hall_last_sweep

theorem witness_BestPairsAreBest :
    RunSound selecting ∧ selecting.engine.run = .selecting ∧ selecting.engine.snapshot = some shot
    ∧ selecting.engine.changeMark = false ∧ look selecting.engine.pairs 0 = some ⟨0, 100⟩
    ∧ look selecting.engine.pairs 120 = none := ⟨selecting_sound, rfl, rfl, rfl, bestPairs_at 0, bestPairs_at 120⟩

/-- The junction on aisle 479, the EXIT point at its own exit, an undefined point, one without a pair, a run that is given
up, and a junction that had aisle 479 before. -/
theorem witness_SelectionEnd :
    open_.engine.run ≠ .selecting ∧ selecting.engine.run = .selecting ∧ selecting.engine.snapshot = some shot
    ∧ selecting.engine.abandonMark = false ∧ (sweepingAt 1 bestPairs true).engine.abandonMark = true
    ∧ (look hall.points 120).defined = false ∧ (look hall.points 0).defined = true
    ∧ look firstPairs 0 = none
    ∧ ((look hall.points 239).kind = .exit ∧ exitAt hall 239 = some 23 ∧ look shot.sources 23 = some ⟨0, 0⟩)
    ∧ ((look shot.aisles 479).usable = true
      ∧ walkTo (look hall.aisles 479) (look shot.aisles 479).passage 0 = some 239
      ∧ look bestPairs 239 = some ⟨0, 0⟩ ∧ (⟨0, 0⟩ : Pair).better ⟨0, 100⟩ = true
      ∧ Pair.add ⟨0, 0⟩ (aisleStep hall shot 479) = ⟨0, 100⟩)
    ∧ (let old : Route := ⟨.routed, some ⟨0, 100⟩, some 479, some 23⟩;
      old.status = .routed ∧ old.next = some 479) := by
  refine ⟨by decide, rfl, rfl, rfl, rfl, by simp [hall_point, Point.reset], by simp [hall_point], by simp [firstPairs],
    ⟨by simp [hall_point], by decide +kernel, shot_source 23⟩,
    ⟨by simp [shot_aisle], by simp [walkTo, hall_aisle, shot_aisle, Passage.fromA], bestPairs_at 239, by decide,
      by rw [hall_step]; rfl⟩, rfl, rfl⟩

/-- The values of the hall lie in their ranges. -/
theorem selecting_ranges : RangesSound selecting where
  length := by
    intro x; rw [show selecting.map = hall from rfl, hall_aisle]; split <;> decide
  width := by
    intro x; rw [show selecting.map = hall from rfl, hall_aisle]; split <;> decide
  bias := by decide +kernel
  thresholds := by
    intro z; rw [show selecting.map = hall from rfl, hall_zone]; split <;> decide
  library := by
    intro i steps h
    have e : look selecting.selector.library i = none := look_replicate none i
    rw [e] at h; cases h
  confirmTime := by decide
  clearHold := by decide
  silenceTime := by decide
  hysteresis := by decide
  phaseUnit := by decide
  takeoverWait := by decide
  runs := by
    intro p; rw [show look selecting.scanner p = Contact.reset from look_replicate _ p]; decide
  deferred := by
    intro p; rw [show look selecting.scanner p = Contact.reset from look_replicate _ p]; decide

theorem witness_PublishedRoutesArrive :
    RunSound selecting ∧ RangesSound selecting ∧ check2 selecting.map = none ∧ check3 selecting.map = none
    ∧ selecting.engine.run = .selecting ∧ selecting.engine.snapshot = some shot ∧ selecting.engine.changeMark = false
    ∧ selecting.engine.abandonMark = false :=
  ⟨selecting_sound, selecting_ranges, hall_check2, hall_check3, rfl, rfl, rfl, rfl⟩

/-- The table that selection gives the hall. -/
def newTable : RouteTable :=
  store (store (Vector.replicate 240 Route.undefined) 239 ⟨.exitHere, some ⟨0, 0⟩, none, some 23⟩) 0
    ⟨.routed, some ⟨0, 100⟩, some 479, none⟩

/-- A run that publishes, with the pending flag given. -/
def publishing (pending : Bool) : State :=
  { selecting with
    engine := { selecting.engine with run := .publishing, newTable := some newTable, pendingFlag := pending } }

theorem witness_Publication :
    selecting.engine.run ≠ .publishing ∧ (publishing true).engine.run = .publishing
    ∧ (publishing true).engine.newTable = some newTable ∧ (publishing true).engine.pendingFlag = true
    ∧ (publishing false).engine.pendingFlag = false := ⟨nofun, rfl, rfl, rfl, rfl⟩

/-! ## Witnesses: displays and the update queue -/

/-- A part with routes: head 0 at the junction, with an arrow mask given. -/
def routed (m : Mode) (record : Route) (arrows : Byte) : State :=
  { idle with
    map := placed, mode := m
    engine := { idle.engine with table := store idle.engine.table 0 record }
    heads :=
      { idle.heads with records := store idle.heads.records 0 { Head.reset with abilities := some ⟨3, arrows, 16⟩ } } }

theorem routed_point (m : Mode) (r : Route) (arrows : Byte) :
    routeOf (routed m r arrows) (placementOf (routed m r arrows) 0).point = r := by
  simp [routeOf, routed, placementOf, placed]

/-- The rows of Table 4.2, and an arrow that can be shown. -/
theorem witness_DisplayFollowsRules :
    (routed .setup Route.undefined 0xFF).mode = .setup
    ∧ (let s := routed .guard ⟨.exitHere, some ⟨0, 0⟩, none, some 23⟩ 0xFF;
      (routeOf s (placementOf s 0).point).status = .exitHere)
    ∧ (let s := routed .alarm Route.noRoute 0xFF; (routeOf s (placementOf s 0).point).status = .noRoute)
    ∧ (let s := routed .guard ⟨.routed, some ⟨0, 6399⟩, some 479, some 23⟩ 0x45;
      (routeOf s (placementOf s 0).point).status = .routed
        ∧ (routeOf s (placementOf s 0).point).best = some ⟨0, 6399⟩
        ∧ (routeOf s (placementOf s 0).point).next = some 479
        ∧ (∃ a, (headOf s 0).abilities = some a ∧ a.arrows.getLsbD 6 = true)
        ∧ (headOf s 0).faultMask.arrows.getLsbD 6 = false)
    ∧ (let s := routed .guard ⟨.routed, some ⟨100, 100⟩, some 479, some 23⟩ 0;
      (routeOf s (placementOf s 0).point).best = some ⟨100, 100⟩ ∧ (⟨100, 100⟩ : Pair).smoke ≠ 0) := by
  refine ⟨rfl, congrArg Route.status (routed_point ..), congrArg Route.status (routed_point ..),
    ⟨congrArg Route.status (routed_point ..), congrArg Route.best (routed_point ..), congrArg Route.next (routed_point ..),
      ⟨⟨3, 0x45, 16⟩, by simp [headOf, routed], by decide⟩, ?_⟩,
    congrArg Route.best (routed_point ..), by decide⟩
  simp [headOf, routed, Head.reset, SegMask.empty]

/-- A display with a phase, and the same with an arrow. -/
def showing (arrow : Option ArrowId) (phase : Fin 64) : Display := ⟨.route, arrow, 0, phase⟩

/-- An ORDINARY entry of head 1 behind an URGENT one of head 0: every case of R90 and R93 for them and for head 2. -/
theorem witness_QueueTakesDisplays :
    let q : List Entry := [⟨0, showing (some 1) 0, true, true⟩, ⟨1, showing (some 2) 5, false, true⟩];
    (oneEach q ∧ urgentFirst q)
    ∧ (entryOf q 2 = none ∧ entryOf q 0 = some ⟨0, showing (some 1) 0, true, true⟩
      ∧ entryOf q 1 = some ⟨1, showing (some 2) 5, false, true⟩)
    ∧ (showing (some 2) 0 ≠ showing (some 2) 5 ∧ showing (some 3) 0 ≠ showing (some 2) 0)
    ∧ (showing (some 2) 0).arrow ≠ (showing (some 3) 0).arrow := by
  refine ⟨⟨by simp [oneEach], by simp [urgentFirst]⟩, ?_, ?_, ?_⟩ <;> decide

/-- R81, R90: one recomputation of heads 63 and 0 appends head 0 first, behind the entry that head 5 has. -/
theorem test_recomputation_order :
    (let old : Display := ⟨.noRoute, none, 0, 0⟩;
      let s : State :=
        { withHead .serving with
          selector := { idle.selector with desired := store (store idle.selector.desired 63 (some old)) 0 (some old) }
          queue := [⟨5, old, true, false⟩] };
      (recomputeAll s).queue.map Entry.head = [5, 0, 63]) := by decide +kernel

/-! ## Witnesses: the sign bus and the sign heads -/

/-- A frame plan with every kind of slot. -/
def mixedPlan : Vector SlotKind 100 :=
  store (store (store (Vector.replicate 100 .update) 1 .enrol) 2 .partner) 99 (.poll 63)

/-- A part whose pair unit and head 63 stand in given states, in slot 98 of a frame, with a command to head 63 in flight. -/
def onBus (p : PairState) (st : HeadState) (command : Option BusCommand) : State :=
  { withHead st with
    pair := { idle.pair with state := p }
    bus :=
      { idle.bus with
        frame := some ⟨400, 98⟩, plan := some mixedPlan, releaseAll := false
        inFlight := command.map fun c => ⟨98, .update, 64, some 63, c⟩ } }

/-- The same with an update entry for head 63, held or not, and a head test pending or not. -/
def withEntry (held test : Bool) : State :=
  let s := onBus .duty .serving none
  { s with
    queue := [⟨63, showing none 63, true, held⟩]
    heads := { s.heads with records := store s.heads.records 63 { headIn .serving with testPending := test } } }

theorem witness_StartOfFrame :
    (let s := onBus .duty .joining none;
      (s.pair.state = .duty ∧ s.pair.isolating = false ∧ s.bus.inFlight = none) ∧ s.bus.releaseAll = false
        ∧ (headOf s 63).state = .joining)
    ∧ (idle.pair.state = .solo ∧ idle.pair.isolating = false ∧ idle.bus.inFlight = none ∧ idle.bus.releaseAll = true
      ∧ idle.bus.frame = none)
    ∧ ((onBus .yielding .serving none).pair.state ≠ .solo ∧ (onBus .yielding .serving none).pair.state ≠ .duty
      ∧ (onBus .duty .serving (some .poll)).bus.inFlight ≠ none)
    ∧ (∀ h, (headOf (onBus .duty .failed none) h).state = .absent ∨ (headOf (onBus .duty .failed none) h).state = .failed) := by
  decide +kernel

theorem witness_SlotsSend :
    (let s := onBus .yielding .serving none;
      s.pair.state = .yielding ∧ s.pair.isolating = false ∧ s.bus.inFlight = none ∧ s.bus.frame = some ⟨400, 98⟩
        ∧ s.bus.plan = some mixedPlan)
    ∧ (look mixedPlan 1 = .enrol ∧ look mixedPlan 2 = .partner ∧ look mixedPlan 98 = .update ∧ look mixedPlan 99 = .poll 63)
    ∧ (eligibleEntry (onBus .duty .serving none) = none
      ∧ eligibleEntry (withEntry false false) = some ⟨63, showing none 63, true, false⟩)
    ∧ ((headOf (onBus .duty .absent none) 63).state = .absent ∧ (headOf (onBus .duty .failed none) 63).state = .failed
      ∧ (headOf (onBus .duty .joining none) 63).state = .joining ∧ (headOf (onBus .duty .loading none) 63).state = .loading)
    ∧ (let s : State :=
        { onBus .duty .recovering none with
          selector := { idle.selector with desired := store idle.selector.desired 63 (some (showing none 63)) } };
      (headOf s 63).state = .recovering ∧ desiredOf s 63 = some (showing none 63))
    ∧ (entryOf (withEntry false false).queue 63 = some ⟨63, showing none 63, true, false⟩
      ∧ entryOf (withEntry true false).queue 63 = some ⟨63, showing none 63, true, true⟩)
    ∧ ((withEntry true false).queue = [] ++ ⟨63, showing none 63, true, true⟩ :: []
      ∧ (headOf (withEntry true false) 63).state = .serving)
    ∧ (let s : State := { withEntry false true with queue := [] };
      (headOf s 63).state = .serving ∧ entryOf s.queue 63 = none ∧ (headOf s 63).testPending = true)
    ∧ (look (Vector.replicate 100 SlotKind.update) 1 ≠ .enrol ∧ look (Vector.replicate 100 SlotKind.update) 2 ≠ .partner
      ∧ look mixedPlan 99 ≠ .update ∧ ∀ h, look mixedPlan 98 ≠ .poll h)
    ∧ ((onBus .reserve .serving none).pair.state ≠ .solo ∧ (onBus .reserve .serving none).pair.state ≠ .duty
      ∧ (onBus .reserve .serving none).pair.state ≠ .yielding ∧ idle.bus.frame = none ∧ idle.bus.plan = none) := by
  decide +kernel

/-- R110, a head of capacity 16: block 0 of script 2 comes before its block 1, script 3 of 17 steps does not fit, and the
closing SCRIPT follows the last block. -/
theorem test_next_script :
    (let light : ScriptStep := .light 1 2 3;
      let s (loaded : List (Nat × Nat)) : State :=
        { onBus .duty .loading none with
          selector :=
            { idle.selector with
              library :=
                store (store idle.selector.library 1 (some (List.replicate 13 light))) 2 (some (List.replicate 17 light))
              generation := 9 }
          heads := { idle.heads with records := store idle.heads.records 63 { headIn .loading with loaded := loaded } } };
      nextScript (s []) 63 = .script 9 2 0 (List.replicate 12 (stepCode light))
        ∧ nextScript (s [(2, 0)]) 63 = .script 9 2 1 [stepCode light]
        ∧ nextScript (s [(2, 1), (2, 0)]) 63 = .script 9 0 0 []) := by decide +kernel

/-- A reply of the head at address 64. -/
def replyFrame (kind : Byte) (payload : List Byte) : Window := .frame (sealFrame 64 kind payload)

/-- An announcement of serial 1002 with abilities. -/
def announcement (level capacity : Byte) : Window := .frame (sealFrame 0 0x83 [0, 0, 3, 0xEA, level, 0xFF, capacity])

/-- The classes of replies to each command; a glyph fault, an arrow fault and *no generation* in the status of an ACK. -/
theorem witness_WindowClasses :
    classify 64 .poll (.frame ⟨64, 0x81, [], 0⟩) = .garbled ∧ classify 63 .poll (replyFrame 0x81 []) = .garbled
    ∧ classify 0 (.invite true) (announcement 3 16) = .valid (.announcement 1002 ⟨3, 0xFF, 16⟩)
    ∧ classify 126 (.query 1 2 3) (.frame (sealFrame 126 0x84 [0xAB, 0xCD, 2, 1])) = .valid (.partner 0xABCD 2 1)
    ∧ classify 64 (.assign 1002) (replyFrame 0x80 []) = .valid .ack
    ∧ classify 64 (.script 0 0 0 []) (replyFrame 0x80 []) = .valid .ack
    ∧ classify 64 .poll (replyFrame 0x80 [1, 0x80, 9]) = .valid (.ackStatus ⟨⟨true, 0x80⟩, some 9⟩)
    ∧ classify 64 .test (replyFrame 0x80 [0x80, 1, 9]) = .valid (.ackStatus ⟨⟨false, 1⟩, none⟩)
    ∧ classify 64 (.display (showing none 0)) (replyFrame 0x81 []) = .valid .wait
    ∧ classify 64 (.resync 1002 64 0 (showing none 0)) (replyFrame 0x82 [2]) = .valid (.reject .noRoom)
    ∧ classify 64 (.assign 1002) (replyFrame 0x80 [0, 0, 0]) = .garbled ∧ classify 64 .poll (replyFrame 0x80 []) = .garbled
    ∧ classify 0 (.invite true) (.frame (sealFrame 0 0x81 [])) = .garbled := by decide +kernel

/-- R173, R175: the eight bytes of DISPLAY are address, kind and payload, and the CRC with its high byte first; the bytes
are read back, and fewer than four bytes are no frame. -/
theorem test_bus_frame_bytes :
    (let f := commandFrame 2 (.display ⟨.route, some 3, 1, 4⟩);
      f.bytes = [0x02, 0x12, 0x01, 0x03, 0x01, 0x04, 0x99, 0xD8] ∧ BusFrame.ofBytes f.bytes = some f
        ∧ BusFrame.ofBytes [0x40, 0x15, 0] = none) := by decide +kernel

/-- The controller in slot 1, its INVITE in flight, with the placements of the hall and head 63 in a state. -/
def inviting (st : HeadState) : State :=
  { onBus .duty st none with
    bus := { (onBus .duty st none).bus with inFlight := some ⟨1, .enrol, 0, none, .invite false⟩ } }

/-- Silence, abilities at each end of their ranges, the head of each state with the serial, and a serial that no placement
holds, known and unknown, with the stranger list full. -/
theorem witness_InviteOutcome :
    (inviting .absent).bus.inFlight = some ⟨1, .enrol, 0, none, .invite false⟩
    ∧ classify 0 (.invite false) .idle = .silent
    ∧ (classify 0 (.invite false) (announcement 2 8) = .valid (.announcement 1002 ⟨2, 0xFF, 8⟩)
      ∧ classify 0 (.invite false) (announcement 3 64) = .valid (.announcement 1002 ⟨3, 0xFF, 64⟩)
      ∧ classify 0 (.invite false) (announcement 1 8) = .valid (.announcement 1002 ⟨1, 0xFF, 8⟩)
      ∧ classify 0 (.invite false) (announcement 4 65) = .valid (.announcement 1002 ⟨4, 0xFF, 65⟩))
    ∧ ((8 : Byte).toNat = 8 ∧ (64 : Byte).toNat ≤ 64 ∧ ¬8 ≤ (7 : Byte).toNat ∧ ¬(65 : Byte).toNat ≤ 64)
    ∧ (inviting .absent).heads.lastFaulty ≠ some 1002
    ∧ ((placementOf (inviting .absent) 63).defined = true ∧ (placementOf (inviting .absent) 63).serial = 1002
      ∧ (placementOf (inviting .absent) 63).enabled = true
      ∧ ∀ k, k < 63 → (placementOf (inviting .absent) k).defined = true → (placementOf (inviting .absent) k).serial ≠ 1002)
    ∧ ((headOf (inviting .joining) 63).state = .joining ∧ (headOf (inviting .failed) 63).state = .failed
      ∧ (headOf (inviting .failed) 63).announced = false ∧ (headOf (inviting .serving) 63).state = .serving)
    ∧ (let s : State := { inviting .absent with map := hall };
      ∀ h, (placementOf s h).defined = true → (placementOf s h).serial ≠ 1002)
    ∧ ((∃ y ∈ [(⟨1002, ⟨2, 1, 8⟩⟩ : Stranger)], y.serial = 1002)
      ∧ 8 ≤ (List.replicate 8 (⟨1, ⟨2, 1, 8⟩⟩ : Stranger)).length
      ∧ ¬∃ y ∈ List.replicate 8 (⟨1, ⟨2, 1, 8⟩⟩ : Stranger), y.serial = 1002)
    ∧ (({ idle.heads with lastFaulty := some 1002 } : HeadManager).lastFaulty = some 1002
      ∧ (⟨true, 1002, 239, 15, false⟩ : Placement).enabled = false ∧ { headIn .failed with announced := true }.announced = true) := by
  decide +kernel

/-- A transaction in flight to head 63 in each state that its command is paired with, one that is not, and failures: a
REJECT, silence and the sixteenth WAIT. -/
theorem witness_AddressedOutcomes :
    (Awaits (onBus .duty .joining (some (.assign 1002))) 63 (.assign 1002) 64
      ∧ (headOf (onBus .duty .joining (some (.assign 1002))) 63).state = .joining)
    ∧ (Awaits (onBus .duty .loading (some (.script 0 0 0 []))) 63 (.script 0 0 0 []) 64
      ∧ (headOf (onBus .duty .loading (some (.script 0 0 0 []))) 63).state = .loading)
    ∧ (Awaits (onBus .duty .serving (some .test)) 63 .test 64 ∧ (headOf (onBus .duty .serving (some .test)) 63).state = .serving
      ∧ (headOf (onBus .duty .loading (some .poll)) 63).state = .loading)
    ∧ (Awaits (onBus .duty .recovering (some (.resync 1002 64 0 (showing none 0)))) 63 (.resync 1002 64 0 (showing none 0)) 64
      ∧ (headOf (onBus .duty .recovering (some (.resync 1002 64 0 (showing none 0)))) 63).state = .recovering)
    ∧ ((onBus .duty .serving none).bus.inFlight = none ∧ Awaits (onBus .duty .failed (some .poll)) 63 .poll 64
      ∧ 0x10 ≤ commandKind .poll ∧ (headOf (onBus .duty .failed (some .poll)) 63).state = .failed)
    ∧ (failureOf (headIn .serving) (.valid (.reject .noRoom)) = some (.reject, some .noRoom)
      ∧ failureOf (headIn .serving) .silent = some (.noReply, none)
      ∧ failureOf { headIn .serving with waitCount := 15 } (.valid .wait) = some (.waitLimit, none)
      ∧ (headIn .serving).waitCount < 15) := by
  refine ⟨⟨⟨_, rfl, rfl, rfl, rfl⟩, ?_⟩, ⟨⟨_, rfl, rfl, rfl, rfl⟩, ?_⟩, ⟨⟨_, rfl, rfl, rfl, rfl⟩, ?_⟩,
    ⟨⟨_, rfl, rfl, rfl, rfl⟩, ?_⟩, ⟨rfl, ⟨_, rfl, rfl, rfl, rfl⟩, ?_⟩, ?_⟩ <;> decide +kernel

theorem witness_HeadAndBusRequests :
    Ready (withEntry false true) ∧ 64 ≤ (64 : Byte).toNat ∧ (63 : Byte).toNat = (63 : HeadId).val
    ∧ (headOf (withEntry false true) 63).state = .serving ∧ (headOf (withEntry false true) 63).testPending = true
    ∧ (headOf (withEntry false false) 63).testPending = false ∧ (headOf (onBus .duty .failed none) 63).state = .failed
    ∧ (headOf (onBus .duty .failed none) 63).state ≠ .serving
    ∧ ((onBus .duty .failed none).mode = .setup ∧ (onBus .duty .failed none).pair.state = .duty
      ∧ (inMode .guard).mode = .guard ∧ (inMode .guard).pair.state = .solo)
    ∧ ((inMode .alarm).mode ≠ .setup ∧ (inMode .alarm).mode ≠ .guard ∧ (onBus .yielding .failed none).pair.state ≠ .solo
      ∧ (onBus .yielding .failed none).pair.state ≠ .duty) := by
  refine ⟨idle_ready, ?_⟩; decide +kernel

/-- A head with a count of BEATs, which shows script 12 of one LIGHT step with phase 63. -/
def listening (beats : Nat) : Device :=
  ⟨1002, some 64, beats, 0, false, some 0, [(12, [.light 15 7 8])], some ⟨.route, none, 12, 63⟩, none, none⟩

theorem witness_HeadsHearBeat :
    (let s : State :=
      { onBus .solo .serving none with
        devices := [listening 9, listening 8], bus := { (onBus .solo .serving none).bus with nextBeat := 1 } };
      listening 9 ∈ s.devices ∧ listening 8 ∈ s.devices ∧ mayStartFrame s = true ∧ s.bus.releaseAll = false
        ∧ 9 ≤ (listening 9).beats ∧ (listening 9).address.isSome ∧ (listening 8).beats < 9
        ∧ (listening 8).display = some ⟨.route, none, 12, 63⟩ ∧ (listening 8).awaiting = none
        ∧ (listening 8).scripts = [(12, [.light 15 7 8])] ∧ (s.bus.nextBeat.toNat + 63) % 64 = 0
        ∧ ([.light 15 7 8] : List ScriptStep).head? = some (.light 15 7 8))
    ∧ (classify 64 (.display (showing none 5)) (replyFrame 0x80 [0, 0, 0]) = .valid (.ackStatus ⟨⟨false, 0⟩, some 0⟩)
      ∧ (listening 8).address = some 64)
    ∧ (classify 0 (.invite false) (announcement 3 16) = .valid (.announcement 1002 ⟨3, 0xFF, 16⟩)
      ∧ ∀ dev ∈ (inviting .joining).devices, dev.serial ≠ 1002) := by decide +kernel

theorem witness_HeadsHearBeat_display :
    Awaits (onBus .duty .serving (some (.display (showing none 5)))) 63 (.display (showing none 5)) 64
    ∧ ∃ s : State, s = { onBus .duty .serving (some (.display (showing none 5))) with devices := [listening 8] }
      ∧ Awaits s 63 (.display (showing none 5)) 64 ∧ listening 8 ∈ s.devices :=
  ⟨⟨_, rfl, rfl, rfl, rfl⟩, _, rfl, ⟨_, rfl, rfl, rfl, rfl⟩, List.mem_singleton.mpr rfl⟩

/-- R87, R111: an acknowledged DISPLAY after a RESYNC of an older generation is shown and may run its script. -/
theorem test_display_after_resync :
    (let s : State :=
      { onBus .duty .serving (some (.display ⟨.route, none, 12, 0⟩)) with devices := [{ listening 0 with awaiting := some 5 }] };
      ((after (.transactionComplete (replyFrame 0x80 [0, 0, 0])) s).devices.map fun d => (d.display, d.awaiting))
        = [(some ⟨.route, none, 12, 0⟩, none)]) := by decide +kernel

/-- R114: a head first heard in slot 1 of an ALARM frame with an odd beat is dark, and with an even beat lit. -/
theorem test_newcomer_blinks :
    ([3, 4].map fun beat =>
        (after (.transactionComplete (announcement 3 16)) { inviting .absent with heard := some ⟨beat, true⟩ }).devices.map glyphLevel)
      = [[0], [15]] := by decide +kernel

/-! ## Witnesses: the pair of controllers -/

/-- A controller of a pair in a state, with its timer, its guard and a partner query in flight. -/
def paired (p : PairState) (role : Role) (silence : Option Nat) (guard : Option ClaimGuard) : State :=
  { onBus p .serving none with
    pair :=
      { idle.pair with
        enabled := true, role := role, state := p, silence := silence, guard := guard, mismatch := 2, lost := 9 } }

/-- The same with its partner query in flight. -/
def asking (p : PairState) : State :=
  { paired p .a none none with
    bus := { (paired p .a none none).bus with inFlight := some ⟨2, .partner, 126, none, .query 0x7C02 2 9⟩ } }

theorem witness_PartnerExchange :
    ((paired .reserve .b (some 2400) none).pair.state = .reserve
      ∧ (paired .claiming .a none (some ⟨20, false⟩)).pair.state = .claiming
      ∧ (paired .isolated .a none none).pair.state = .isolated)
    ∧ ((asking .duty).bus.inFlight = some ⟨2, .partner, 126, none, .query 0x7C02 2 9⟩
      ∧ classify 126 (.query 0x7C02 2 9) (.frame (sealFrame 126 0x84 [0xAB, 0xCD, 2, 1])) = .valid (.partner 0xABCD 2 1)
      ∧ (0xABCD ≠ (asking .duty).engine.digest ∧ (asking .duty).pair.mismatch = 2)
      ∧ classify 126 (.query 0x7C02 2 9) .idle = .silent ∧ (asking .duty).pair.lost = 9)
    ∧ ((asking .yielding).pair.state = .yielding ∧ (asking .duty).pair.state = .duty ∧ idle.pair.state = .solo)
    ∧ ((⟨126, 4, [], 0⟩ : BusFrame).crc ≠ crc16 [126, 4] ∧ 0x80 ≤ (sealFrame 126 0x84 []).kind.toNat) := by decide +kernel

/-- R143: the slot count follows the frame start at an observed INVITE and at an observed query; R173: the reply on HOLD is
address, kind, digest, mode, pair state and CRC. -/
theorem test_observed_slot_count :
    (let s : State := { paired .reserve .b (some 2400) none with now := 402 };
      ((after (.observedBroadcast (commandFrame 0 (.invite false)) .idle) s).bus.frame = some ⟨400, 1⟩)
        ∧ (let t := after (.partnerQueryObserved (commandFrame 126 (.query 0x7C02 2 9))) { s with now := 404 };
          t.bus.frame = some ⟨400, 2⟩
            ∧ t.pair.holdReply
              = some ([0x7E, 0x84] ++ halfBytes idle.engine.digest ++ [0, 1]
                ++ halfBytes (crc16 ([0x7E, 0x84] ++ halfBytes idle.engine.digest ++ [0, 1]))))) := by decide +kernel

theorem witness_PairTimersExpire :
    ((paired .duty .a none none).pair.state ≠ .reserve
      ∧ (paired .reserve .b (some 2400) none).pair.state = .reserve
      ∧ (paired .reserve .b (some 2400) none).pair.silence = some 2400)
    ∧ ((paired .claiming .a none (some ⟨20, true⟩)).pair.state = .claiming
      ∧ (paired .claiming .a none (some ⟨20, true⟩)).pair.guard = some ⟨20, true⟩
      ∧ (⟨20, true⟩ : ClaimGuard).second = true)
    ∧ ((paired .claiming .b none (some ⟨20, false⟩)).pair.guard = some ⟨20, false⟩
      ∧ (paired .claiming .b none (some ⟨20, false⟩)).pair.role = .b ∧ (⟨20, false⟩ : ClaimGuard).second = false
      ∧ (paired .claiming .a none (some ⟨20, false⟩)).pair.role = .a) := by decide

theorem witness_YieldAndIsolate :
    Ready (paired .duty .a none none) ∧ (paired .duty .a none none).pair.state = .duty
    ∧ (paired .yielding .a none none).pair.state = .yielding ∧ (paired .isolated .a none none).pair.state = .isolated
    ∧ (paired .reserve .a (some 1200) none).pair.state = .reserve
    ∧ (paired .claiming .a none (some ⟨20, false⟩)).pair.state = .claiming
    ∧ (Ready idle ∧ idle.pair.state = .solo)
    ∧ ((paired .yielding .a none none).pair.isolating = false ∧ (paired .yielding .a none none).bus.inFlight = none
      ∧ (asking .yielding).bus.inFlight.isSome)
    ∧ (let s : State := { paired .duty .a none none with pair := { (paired .duty .a none none).pair with isolating := true } };
      s.pair.isolating = true ∧ s.bus.inFlight = none) := by
  refine ⟨idle_ready, rfl, rfl, rfl, rfl, rfl, ⟨idle_ready, rfl⟩, ?_⟩; decide

theorem witness_ObservedBroadcasts :
    ((paired .reserve .a (some 1200) none).pair.state = .reserve
      ∧ (paired .reserve .a (some 1200) none).bus.inFlight = none
      ∧ (headOf (withEntry false true) 63).testPending = true)
    ∧ ((⟨0, 1, [0, 0], 0⟩ : BusFrame).crc ≠ crc16 [0, 1, 0, 0])
    ∧ (idle.pair.state = .solo ∧ (asking .duty).pair.state = .duty ∧ (asking .yielding).pair.state = .yielding) := by
  decide +kernel

/-- An observer with frame timing, head 63 in each state of Table 8.4 with a command for it, and what is disregarded. -/
theorem witness_ObservedTransactions :
    (let s := onBus .isolated .loading none;
      s.pair.state = .isolated ∧ s.bus.frame = some ⟨400, 98⟩ ∧ (placementOf s 63).defined = true
        ∧ (placementOf s 63).serial = 1002 ∧ (headOf s 63).state = .loading)
    ∧ (0x10 ≤ commandKind (.assign 1002) ∧ 0x10 ≤ commandKind .poll
      ∧ (List.replicate 12 (0x8000 : Half)).length ≤ 12 ∧ 12 < (List.replicate 13 (0x8000 : Half)).length)
    ∧ ((headOf (onBus .reserve .absent none) 63).state = .absent ∧ (headOf (onBus .reserve .failed none) 63).state = .failed
      ∧ (headOf (onBus .reserve .joining none) 63).state = .joining
      ∧ (headOf (onBus .reserve .serving none) 63).state = .serving
      ∧ (headOf (onBus .reserve .recovering none) 63).state = .recovering)
    ∧ (let s : State := { onBus .reserve .serving none with bus := { idle.bus with frame := none } };
      s.pair.state = .reserve ∧ s.bus.frame = none)
    ∧ ((placementOf (onBus .reserve .serving none) 62).defined = false
      ∧ 1001 ≠ (placementOf (onBus .reserve .serving none) 63).serial) := by decide +kernel

/-- R173: an observed SCRIPT of 12 steps that is acknowledged joins the loading record, and one of 13 steps does not. -/
theorem test_observed_script_length :
    ([12, 13].map fun n =>
        (headOf
          (after
            (.observedTransaction (commandFrame 64 (.script 0 1 0 (List.replicate n 0x8000))) (replyFrame 0x80 []))
            (onBus .isolated .loading none))
          63).loaded)
      = [[(1, 0)], []] := by decide +kernel

/-! ## Witnesses: queries -/

theorem witness_QueriesReport :
    Ready idle ∧ 240 ≤ (240 : Byte).toNat ∧ 64 ≤ (64 : Byte).toNat ∧ 24 ≤ (24 : Byte).toNat
    ∧ (239 : Byte).toNat = (239 : PointId).val ∧ (63 : Byte).toNat = (63 : ZoneId).val
    ∧ (23 : Byte).toNat = (23 : ExitId).val ∧ (63 : Byte).toNat = (63 : HeadId).val
    ∧ idle.bus.plan = none ∧ (onBus .duty .serving none).bus.plan = some mixedPlan
    ∧ (∀ e ∈ idle.queue, e.head ≠ 63)
    ∧ ((withEntry false false).queue = [] ++ ⟨63, showing none 63, true, false⟩ :: []
      ∧ (∀ x ∈ ([] : List Entry), x.head ≠ 63)) := by
  refine ⟨idle_ready, by decide, by decide, by decide, by decide, by decide, by decide, by decide, rfl, rfl, ?_, rfl, ?_⟩ <;>
    simp [idle, State.reset]

/-- R133, R171: the fault mask of a head without a loaded generation has bit 7 of its first byte set, and of one with a
generation clear. -/
theorem test_head_mask_marks_no_generation :
    ([none, some (5 : Byte)].map fun g =>
        (headBytes
          { withHead .serving with
            heads :=
              { idle.heads with
                records := store idle.heads.records 63 { headIn .serving with generation := g, faultMask := ⟨true, 2⟩ } } }
          63).drop 12 |>.take 2)
      = [[0x81, 2], [0x01, 2]] := by decide +kernel

/-! ## Witnesses: invariants -/

theorem witness_StepKeepsLink :
    (let s : State := { busy [waitingRequest] with pending := [.transmitFrameEnd] };
      LinkSound s ∧ ∃ t, step s = .next t) :=
  ⟨⟨by decide, by decide, by decide, by decide, nofun, nofun, rfl⟩, _, rfl⟩

/-- Head 63 in service, with the display that it wants in the queue. -/
def waitingDisplay : State :=
  { withHead .serving with
    selector := { idle.selector with desired := store idle.selector.desired 63 (some (displayFor (withHead .serving) 63)) }
    queue := [⟨63, displayFor (withHead .serving) 63, true, false⟩], pending := [.restartBus 1] }

theorem waitingDisplay_desired (h : HeadId) :
    desiredOf waitingDisplay h = if 63 = h then some (displayFor (withHead .serving) 63) else none := by
  simp [desiredOf, waitingDisplay, look_store, idle, State.reset, Selector.reset]

theorem waitingDisplay_head (h : HeadId) :
    headOf waitingDisplay h = if 63 = h then headIn .serving else Head.reset := by
  simp [headOf, waitingDisplay, withHead, look_store, idle, State.reset, HeadManager.reset]

theorem witness_StepKeepsDisplays : DisplaySound waitingDisplay ∧ ∃ t, step waitingDisplay = .next t := by
  refine ⟨⟨fun h => ?_, fun h d e => ?_, ?_, fun e m => ?_, ?_⟩, _, rfl⟩
  · rw [waitingDisplay_desired, waitingDisplay_head]; split <;> rfl
  · rw [waitingDisplay_desired] at e
    split at e
    · subst h; cases e; rfl
    · cases e
  · simp [waitingDisplay]
  · obtain rfl := List.mem_singleton.mp m
    exact ⟨by rw [waitingDisplay_desired]; rfl, by rw [waitingDisplay_head]; nofun⟩
  · simp [urgentFirst, waitingDisplay]

theorem witness_StepKeepsEngine :
    (let s : State := { selecting with pending := [.selectionEnd] };
      EngineSound s ∧ RunSound s ∧ ∃ t, step s = .next t) := by
  refine ⟨⟨?_, nofun, by decide, by decide, by decide, by decide, by decide⟩,
    ⟨selecting_sound.usable, selecting_sound.exits, selecting_sound.attained, selecting_sound.sources,
      selecting_sound.settled⟩, _, rfl⟩
  have bytes : ∀ n, (List.replicate n Route.undefined).flatMap (fun r => halfBytes (digestValue r))
      = List.replicate (2 * n) 0xFF := by
    intro n
    induction n with
    | zero => rfl
    | succ n ih =>
      rw [List.replicate_succ, List.flatMap_cons, ih, show 2 * (n + 1) = 2 * n + 2 from rfl, List.replicate_succ,
        List.replicate_succ]
      rfl
  show resetDigest = crc16 ((Vector.replicate 240 Route.undefined).toList.flatMap _)
  rw [Vector.toList_replicate, bytes]
  exact test_reset_digest.symm

theorem witness_StepKeepsZonesAndExits :
    (let s : State :=
      { zoneWith ⟨.suspect, some 90, some 6000, none, some 20000⟩ with
        exits := store idle.exits 23 ⟨.auto, 0, .made, true, false⟩, pending := [.exitOverride 1 23 2] };
      ZonesSound s ∧ ExitsSound s ∧ ∃ t, step s = .next t) := by
  refine ⟨⟨?_, ?_, ?_, ?_⟩, ⟨?_, ?_, ?_⟩, _, rfl⟩ <;> decide +kernel

theorem witness_StepKeepsHeadsAndPair :
    (let s : State :=
      { withEntry true true with
        pair := { (paired .duty .a none none).pair with hold := true }, pending := [.testHead 1 63] };
      HeadsSound s ∧ PairSound s ∧ ∃ t, step s = .next t) := by
  refine ⟨⟨?_, ?_, ?_, ?_, ?_, ?_⟩, ⟨?_, ?_, ?_, ?_, ?_, ?_, ?_, ?_⟩, _, rfl⟩ <;> decide +kernel

theorem witness_StepKeepsRanges :
    (let s : State := { selecting with map := { hall with validated := true }, pending := [.exitBias 1 23 5000] };
      RangesSound s ∧ ModeSound s ∧ ∃ t, step s = .next t) := by
  obtain ⟨a, b, c, d, e, f, g, h, i, j, k, l, m⟩ := selecting_ranges
  exact ⟨⟨a, b, c, d, e, f, g, h, i, j, k, l, m⟩, ⟨fun _ => rfl, by decide⟩, _, rfl⟩

/-! ## The spec's worked cases -/

/-- Table 3.8. -/
theorem test_step_pairs :
    stepPair 180 3 .clear = ⟨0, 225⟩ ∧ stepPair 300 2 .clear = ⟨0, 450⟩ ∧ stepPair 220 1 .clear = ⟨0, 440⟩
    ∧ stepPair 150 3 .clear = ⟨0, 188⟩ ∧ stepPair 180 3 .smoke = ⟨180, 225⟩ := by decide

/-- 4.9.2 and 4.9.3: the arrows of heads 0, 1 and 2, head 2 with its faults too. -/
theorem test_arrows :
    chooseArrow (relativeBearing 0 4) (usableArrows 0x45 0) = some 6
    ∧ chooseArrow (relativeBearing 6 4) (usableArrows 0x45 0) = some 0
    ∧ chooseArrow (relativeBearing 1 0) (usableArrows 0xFF 0) = some 0
    ∧ chooseArrow (relativeBearing 2 12) (usableArrows 0xFF 0x80) = some 3
    ∧ chooseArrow (relativeBearing 2 12) (usableArrows 0xFF 0x88) = some 2 := by decide

/-- 8.6: the POLL slots of heads 0 to 9, and 6.1's of three heads. -/
theorem test_poll_slots :
    (List.range 10).map (fun i => pollSlotOf i 10) = [3, 12, 22, 32, 41, 51, 61, 70, 80, 90]
    ∧ (List.range 3).map (fun i => pollSlotOf i 3) = [3, 35, 67] := by decide

/-- Table 5.4, events 1, 5 and 6: the queue after the publications of cases 4 and 2 and the ACK of head 2. -/
theorem test_queue_example :
    let d (k : DisplayKind) (a : ArrowId) (n : ScriptId) (p : Fin 64) : Display := ⟨k, some a, n, p⟩
    let one := queueDisplay 2 (some (d .route 3 1 2)) (d .routeSmoke 3 2 9)
      (queueDisplay 1 (some (d .route 3 1 4)) (d .routeSmoke 0 2 4)
        (queueDisplay 0 (some (d .route 6 1 2)) (d .routeSmoke 6 2 2) []))
    let three := holdEntry 1 (queueAck 0 (d .routeSmoke 6 2 2) (some (d .routeSmoke 6 2 2)) one)
    let five := queueDisplay 2 (some (d .route 3 1 2)) (d .route 3 1 2)
      (queueDisplay 1 (some (d .route 3 1 4)) (d .route 3 1 7)
        (queueDisplay 0 (some (d .routeSmoke 6 2 2)) (d .route 0 1 7) three))
    one = [⟨0, d .routeSmoke 6 2 2, true, false⟩, ⟨1, d .routeSmoke 0 2 4, true, false⟩, ⟨2, d .routeSmoke 3 2 9, true, false⟩]
    ∧ five = [⟨1, d .route 3 1 7, true, true⟩, ⟨0, d .route 0 1 7, true, false⟩]
    ∧ queueAck 2 (d .routeSmoke 3 2 9) (some (d .route 3 1 2)) five
      = five ++ [⟨2, d .route 3 1 2, true, false⟩] := by decide

/-- Table 2.5, at 4, 6 and 14 s: readings of 95 and 80 in SUSPECT, and the expiry of the confirm timer. -/
theorem test_zone_example :
    (let s : State := { zoneWith ⟨.suspect, some 55, none, none, some 22000⟩ with now := 4000 };
      zoneOf (takeReading 63 95 s) 63 = ⟨.suspect, some 95, some 10000, none, some 24000⟩)
    ∧ (let s : State := { zoneWith ⟨.suspect, some 95, some 10000, none, some 24000⟩ with now := 6000 };
      zoneOf (takeReading 63 80 s) 63 = ⟨.suspect, some 80, none, none, some 26000⟩)
    ∧ (let s : State := { zoneWith ⟨.suspect, some 120, some 14000, none, some 32000⟩ with mode := .setup, now := 12000 };
      (confirmExpiry 63 s).now = 14000 ∧ zoneOf (confirmExpiry 63 s) 63 = ⟨.smoke, some 120, none, none, none⟩) := by
  decide +kernel

/-- Table 2.6: six positions reach their fifth broken reading in one scan, a seventh in the next. -/
theorem test_scan_example :
    (let made : Contact := ⟨.made, some true, 5, false⟩;
      let fifth : Contact := ⟨.made, some false, 5, false⟩;
      let bank : Vector Contact 32 :=
        store (store (store (store (store (store (Vector.replicate 32 made) 2 fifth) 5 fifth) 9 fifth) 16 fifth) 23 fifth) 27 fifth;
      acceptedOf bank = [2, 5, 9, 16]
        ∧ acceptedOf (store (settleScan bank) 1 fifth) = [23, 27, 1]) := by decide +kernel

/-- Table 4.10: the levels that script 2 shows on the eleven beats after a restart. -/
theorem test_script_example :
    (let script : List ScriptStep := [.light 15 15 1, .light 0 15 1, .loop 0 2, .light 15 0 2, .light 0 0 2, .loop 0 0];
      (List.range 11).map (fun n =>
        let p := (List.range n).foldl (fun p _ => advanceScript script p) (startScript script)
        (p.arrowLevel, p.glyphLevel)))
      = [(15, 15), (0, 15), (15, 15), (0, 15), (15, 15), (0, 15), (15, 0), (15, 0), (0, 0), (0, 0), (15, 15)] := by decide

end Sys2Proof.Tests
end

section
/-! What a command can do to the part: it moves the link alone, it is the service of a request by the owning block, or it
is an event of the part's own. Proofs about every step go through this one case split. -/

namespace Sys2Proof.Machine

/-- What a command that no frame of the panel link brings does; a request does nothing by this way. -/
def eventOf : Instr → State → State
  | .hardReset speed pairEn role => hardReset speed pairEn role
  | .validationComplete => completeValidation
  | .autoAlarmRequest => autoAlarm
  | .confirmTimerExpiry z => confirmExpiry z
  | .clearHoldExpiry z => clearHoldExpiry z
  | .zoneSilenceExpiry z => silenceExpiry z
  | .gateScan levels => gateScan levels
  | .sweepEnd => endSweep
  | .selectionEnd => endSelection
  | .publication => publish
  | .beat => fun s => if mayStartFrame s && !s.bus.releaseAll then sendBeat (nextStart s) s else s
  | .releaseAll => fun s => if mayStartFrame s && s.bus.releaseAll then sendReleaseAll (nextStart s) s else s
  | .enrol => enrolSlot
  | .partnerSlot => partnerSlot
  | .updateSlot k => updateSlot k
  | .pollSlot k => pollSlot k
  | .transactionComplete w => completeTransaction w
  | .yieldingEnd => fun s =>
    if s.pair.state = .yielding ∧ !s.pair.isolating ∧ s.bus.inFlight.isNone then endYield (reachTime (frameEnd s) s) else s
  | .isolateSlotEnd => fun s => if s.pair.isolating ∧ s.bus.inFlight.isNone then enterIsolated s else s
  | .pairSilenceExpiry ph => silenceEnds ph
  | .claimGuardExpiry ph => guardEnds ph
  | .observedBroadcast f w => observeBroadcast f w
  | .observedTransaction f w => observeTransaction f w
  | .partnerQueryObserved f => observeQuery f
  | .partnerQueryMissed => fun s => if observes s then missedExchange (countSlot s) else s
  | _ => id

/-- The three ways in which a command acts on the part. -/
inductive Does (c : Instr) (s : State) : State → Prop
  | link (l : Link) : Does c s { s with link := l }
  | request (i : Instr) (l l' : Link) : Does c s { (requestAct i { s with link := l }).state with link := l' }
  | event : Does c s (eventOf c s)

/-- A frame is served as some request, or refused, which is what the blocks do with a command that is no request. -/
theorem frameAct_state (r : PanelFrame) (s : State) : ∃ i, (frameAct r s).state = (requestAct i s).state := by
  unfold frameAct
  cases decodeRequest r with
  | ok i => exact ⟨i, rfl⟩
  | error code => exact ⟨.beat, rfl⟩

theorem Does.serve (c : Instr) (r : PanelFrame) (act : State → Served) (s : State) (l : Link)
    (h : ∀ u, ∃ i, (act u).state = (requestAct i u).state) : Does c s (serveWith r act { s with link := l }) := by
  obtain ⟨i, hi⟩ := h { s with link := { l with serving := true } }
  simp only [serveWith, formReply, hi]
  exact .request i _ _

theorem Does.take (c : Instr) (r : PanelFrame) (act : State → Served) (s : State) (l : Link)
    (h : ∀ u, ∃ i, (act u).state = (requestAct i u).state) : Does c s (takeRequest r act { s with link := l }) := by
  unfold takeRequest; split
  · exact .serve c r act s l h
  · unfold bufferRequest; split <;> exact .link _

theorem Does.receive (c : Instr) (b : Byte) (e : Bool) (s : State) : Does c s (receiveByte b e s) := by
  have gather : ∀ x, Does c s (gatherByte x s) := fun x => by unfold gatherByte; dsimp only; split <;> exact .link _
  have judged : ∀ bytes l, Does c s (judgeFrame bytes { s with link := l }) := fun bytes l => by
    unfold judgeFrame; split
    · exact .link _
    · split
      · exact .take c _ _ s l (frameAct_state _)
      · exact .link _
  unfold receiveByte; split
  · split <;> exact .link _
  · split
    · exact .link _
    · unfold gatherStep; split
      · split
        · exact .link _
        · exact judged _ _
      · split
        · exact gather _
        · split
          · exact .link _
          · exact gather _

theorem Does.transmit (c : Instr) (s : State) : Does c s (endTransmit s) := by
  unfold endTransmit; split
  · unfold serveWaiting; split
    · exact .serve c _ _ s _ (frameAct_state _)
    · exact .link _
  · exact .link _

/-- A command that relays no other request is an event of the part's own, or a request taken by its own block. -/
theorem exec_own_or_request (c : Instr) (s : State) (h : relaysRequests c = false) :
    exec c s = .next (eventOf c s) ∨ exec c s = .next (takeRequest (requestFrame c) (requestAct c) s) := by
  cases c
  case panelByteReceived | transmitFrameEnd | unknownType => exact absurd h nofun
  case hardReset | validationComplete | autoAlarmRequest | confirmTimerExpiry | clearHoldExpiry | zoneSilenceExpiry
    | gateScan | sweepEnd | selectionEnd | publication | beat | releaseAll | enrol | partnerSlot | updateSlot | pollSlot
    | transactionComplete | yieldingEnd | isolateSlotEnd | pairSilenceExpiry | claimGuardExpiry | observedBroadcast
    | observedTransaction | partnerQueryObserved | partnerQueryMissed => exact .inl rfl
  all_goals exact .inr rfl

/-- Every command acts in one of the three ways. -/
theorem exec_does {c : Instr} {s t : State} (h : exec c s = .next t) : Does c s t := by
  cases hr : relaysRequests c with
  | true =>
    cases c
    case panelByteReceived b e => rw [← Host.Outcome.next.inj h]; exact .receive _ b e s
    case transmitFrameEnd => rw [← Host.Outcome.next.inj h]; exact .transmit _ s
    case unknownType => rw [← Host.Outcome.next.inj h]; exact .take _ _ _ s s.link (frameAct_state _)
    all_goals exact absurd hr Bool.false_ne_true
  | false =>
    rcases exec_own_or_request c s hr with e | e <;> rw [e] at h <;> rw [← Host.Outcome.next.inj h]
    · exact .event
    · exact .take c _ _ s s.link fun u => ⟨c, rfl⟩

/-- What the clock, a change of the link, the requests and the part's own events keep, every step keeps. -/
theorem step_keeps {P : State → Prop} {s t : State} (h : step s = .next t) (hs : P s)
    (clock : ∀ s n, P s → P { s with now := n }) (queue : ∀ s q, P s → P { s with pending := q })
    (link : ∀ s l, P s → P { s with link := l }) (request : ∀ i s, P s → P (requestAct i s).state)
    (event : ∀ c s, P s → P (eventOf c s)) : P t := by
  unfold step at h; split at h
  · rw [← Host.Outcome.next.inj h]; exact clock s _ hs
  · next c rest _ =>
    have hq := queue s rest hs
    cases exec_does h with
    | link l => exact link _ l hq
    | request i l l' => exact link _ l' (request i _ (link _ l hq))
    | event => exact event c _ hq

end Sys2Proof.Machine
end

section
/-! What the commands of the zone monitor, the exit monitor, the gate scanner, the route engine and the display selector
leave alone, said once: the map, the library, the heads, the pair, the bus, the mode and the settings. -/

namespace Sys2Proof.Machine

/-- The scanner's record of a position keeps its count, and is deferred on a full run alone (R35, R37). -/
def runSound (c : Contact) : Prop :=
  c.count ≤ Config.debounceCount ∧ (c.deferred = true → c.count = Config.debounceCount)

/-- The two states differ in zones, exits, scanner, route engine, displays, link and clock alone, with every runtime bias
left within its limit (R42) and every scanner record sound. -/
structure MonitorMove (s t : State) : Prop where
  frame : ∃ z a sc x g d q l n, t = { s with
    zones := z, alarmRequests := a, scanner := sc, exits := x, engine := g
    selector := { s.selector with desired := d }, queue := q, link := l, now := n }
  bias : ∀ e, (look s.map.exits e).baseBias ≤ Config.biasLimit → (exitOf s e).bias ≤ Config.biasLimit →
    (exitOf t e).bias ≤ Config.biasLimit
  runs : ∀ p, runSound (look s.scanner p) → runSound (look t.scanner p)

theorem MonitorMove.refl (s : State) : MonitorMove s s :=
  ⟨⟨_, _, _, _, _, _, _, _, _, rfl⟩, fun _ _ h => h, fun _ h => h⟩

theorem MonitorMove.trans {s t u : State} (h : MonitorMove s t) (k : MonitorMove t u) : MonitorMove s u := by
  obtain ⟨⟨z, a, sc, x, g, d, q, l, n, rfl⟩, hb, hr⟩ := h
  obtain ⟨⟨z', a', sc', x', g', d', q', l', n', rfl⟩, kb, kr⟩ := k
  exact ⟨⟨z', a', sc', x', g', d', q', l', n', rfl⟩, fun e m b => kb e m (hb e m b), fun p r => kr p (hr p r)⟩

theorem MonitorMove.after {s t u : State} (k : MonitorMove t u) (h : MonitorMove s t) : MonitorMove s u := h.trans k

theorem MonitorMove.forEach {n : Nat} (f : Fin n → State → State) (h : ∀ i s, MonitorMove s (f i s)) (s : State) :
    MonitorMove s (forEach n f s) :=
  forEach_induct f s (.refl s) fun i t ht => ht.trans (h i t)

theorem MonitorMove.foldl {β : Type} (f : State → β → State) (h : ∀ s b, MonitorMove s (f s b)) (l : List β) (s : State) :
    MonitorMove s (l.foldl f s) :=
  foldl_induct f l s (.refl s) fun t b ht => ht.trans (h t b)

/-- A move that leaves exits and scanner. -/
theorem MonitorMove.quiet {s : State} (z : Vector ZoneRt 64) (a : List ZoneId) (g : Engine) (d : Vector (Option Display) 64)
    (q : List Entry) (l : Link) (n : Nat) :
    MonitorMove s { s with
      zones := z, alarmRequests := a, engine := g, selector := { s.selector with desired := d }, queue := q, link := l
      now := n } :=
  ⟨⟨_, _, _, _, _, _, _, _, _, rfl⟩, fun _ _ h => h, fun _ h => h⟩

/-- The runtime fields of one exit are written, its bias staying or taking a value within the limit or its base bias. -/
theorem setExitRt_moves {e : ExitId} {r : ExitRt} {s : State}
    (hb : r.bias = (exitOf s e).bias ∨ r.bias ≤ Config.biasLimit ∨ r.bias = (look s.map.exits e).baseBias) :
    MonitorMove s (setExitRt e r s) := by
  refine ⟨⟨_, _, _, _, _, _, _, _, _, rfl⟩, fun k hm h => ?_, fun _ h => h⟩
  by_cases hk : e = k
  · subst hk
    rw [exitOf_setExitRt_same]
    rcases hb with e | e | e <;> omega
  · rwa [exitOf_setExitRt_ne _ _ hk]

theorem setZoneRt_monitor (z : ZoneId) (r : ZoneRt) (s : State) : MonitorMove s (setZoneRt z r s) :=
  .quiet _ s.alarmRequests s.engine s.selector.desired s.queue s.link s.now
theorem offer_monitor (n : Notice) (s : State) : MonitorMove s (offer n s) :=
  .quiet s.zones s.alarmRequests s.engine s.selector.desired s.queue _ s.now
theorem reachTime_monitor (n : Nat) (s : State) : MonitorMove s (reachTime n s) :=
  .quiet s.zones s.alarmRequests s.engine s.selector.desired s.queue s.link _
theorem setEngine_monitor (g : Engine) (s : State) : MonitorMove s { s with engine := g } :=
  .quiet s.zones s.alarmRequests g s.selector.desired s.queue s.link s.now
theorem startRun_monitor (s : State) : MonitorMove s (startRun s) := setEngine_monitor _ s
theorem replaceTable_monitor (table : RouteTable) (s : State) : MonitorMove s (replaceTable table s) :=
  setEngine_monitor _ s
theorem clearEngine_monitor (s : State) : MonitorMove s (clearEngine s) := setEngine_monitor _ s

theorem handChange_monitor (c : ChangeClass) (s : State) : MonitorMove s (handChange c s) := by
  obtain ⟨g, h⟩ := handChange_frame c s
  rw [h]; exact setEngine_monitor g s

theorem requestAlarm_monitor (z : ZoneId) (s : State) : MonitorMove s (requestAlarm z s) := by
  obtain ⟨a, h⟩ := requestAlarm_frame z s
  rw [h]; exact .quiet s.zones a s.engine s.selector.desired s.queue s.link s.now

theorem recomputeAll_monitor (s : State) : MonitorMove s (recomputeAll s) := by
  obtain ⟨d, q, h⟩ := recomputeAll_frame s
  rw [h]; exact .quiet s.zones s.alarmRequests s.engine d q s.link s.now

/-! ## Exits and the gate scanner -/

theorem reevalExit_monitor (hand : Bool) (e : ExitId) (s : State) : MonitorMove s (reevalExit hand e s) := by
  unfold reevalExit; dsimp only; split
  · have written : MonitorMove s (setExitRt e { exitOf s e with available := availabilityOf s e } s) :=
      setExitRt_moves (.inl rfl)
    split
    · exact written.trans ((offer_monitor _ _).trans (handChange_monitor _ _))
    · exact written.trans (offer_monitor _ _)
  · exact .refl s

theorem reevalExits_monitor (hand : Bool) (s : State) : MonitorMove s (reevalExits hand s) :=
  .forEach _ (reevalExit_monitor hand) s

theorem reevalZoneExits_monitor (z : ZoneId) (s : State) : MonitorMove s (reevalZoneExits z s) :=
  .forEach _ (fun e s => by split; exacts [reevalExit_monitor true e s, .refl s]) s

theorem takeContact_monitor (e : ExitId) (c : ContactState) (s : State) : MonitorMove s (takeContact e c s) :=
  (reevalExit_monitor true e _).after (setExitRt_moves (.inl rfl))

theorem handContact_monitor (p : PositionId) (s : State) : MonitorMove s (handContact p s) :=
  .forEach _ (fun e s => by split; exacts [takeContact_monitor _ _ _, .refl s]) s

theorem copyContact_monitor (e : ExitId) (s : State) : MonitorMove s (copyContact e s) := by
  unfold copyContact; split
  · split
    · exact takeContact_monitor _ _ _
    · exact .refl s
  · exact .refl s

theorem runSound_runOn {c : Contact} (level : Bool) (h : runSound c) : runSound (runOn level c) := by
  obtain ⟨hc, hd⟩ := h
  unfold runOn; split
  · exact ⟨Nat.min_le_left _ _, fun m => by have := hd m; simp only; omega⟩
  · exact ⟨by simp [Config.debounceCount], nofun⟩

/-- Acceptance keeps the count, and a position is deferred as a candidate alone, whose run is full (R36, R37). -/
theorem runSound_settle {v : Vector Contact 32} {p : PositionId} (h : runSound (look v p)) :
    runSound (look (settleScan v) p) := by
  unfold settleScan; rw [look_tabulate]; split
  · unfold acceptContact; split
    · exact ⟨h.1, nofun⟩
    · exact h
  · split
    · next hc =>
      refine ⟨h.1, fun _ => ?_⟩
      unfold isCandidate at hc; split at hc
      · simp only [Bool.and_eq_true, beq_iff_eq] at hc; exact hc.1
      · exact absurd hc Bool.false_ne_true
    · exact h

theorem setScanner_monitor {sc : Vector Contact 32} {s : State}
    (h : ∀ p, runSound (look s.scanner p) → runSound (look sc p)) : MonitorMove s { s with scanner := sc } :=
  ⟨⟨_, _, _, _, _, _, _, _, _, rfl⟩, fun _ _ h => h, h⟩

theorem gateScan_monitor (levels : BitVec 32) (s : State) : MonitorMove s (gateScan levels s) := by
  have scanned : MonitorMove s { s with scanner := settleScan (scanRuns levels s.scanner) } :=
    setScanner_monitor fun p h => runSound_settle (by unfold scanRuns; rw [look_tabulate]; exact runSound_runOn _ h)
  exact scanned.trans ((MonitorMove.foldl _ (fun s p => handContact_monitor p s) _ _).trans (.forEach _ copyContact_monitor _))

theorem exitOverride_monitor (index value : Byte) (s : State) : MonitorMove s (exitOverride index value s).state := by
  unfold exitOverride; split
  · exact .refl s
  · split
    · exact .refl s
    · split
      · exact .refl s
      · exact (reevalExit_monitor true _ _).after (setExitRt_moves (.inl rfl))

theorem writeBias_monitor (e : ExitId) {b : Nat} (hb : b ≤ Config.biasLimit) (s : State) : MonitorMove s (writeBias e b s) := by
  have written : MonitorMove s (setExitRt e { exitOf s e with bias := b } s) := setExitRt_moves (.inr (.inl hb))
  unfold writeBias; dsimp only; split
  · split
    · exact written.trans (handChange_monitor _ _)
    · exact written
  · exact written

theorem exitBias_monitor (index : Byte) (value : Half) (s : State) : MonitorMove s (exitBias index value s).state := by
  unfold exitBias; split
  · exact .refl s
  · split
    · exact .refl s
    · exact writeBias_monitor _ (Nat.min_le_left _ _) s

/-! ## Zones -/

theorem changeZone_monitor (z : ZoneId) (new : ZoneState) (cause : ZoneCause) (s : State) :
    MonitorMove s (changeZone z new cause s) := by
  have hand : ∀ c u, MonitorMove u (handIf c u) := fun c u => by
    cases c with
    | none => exact .refl u
    | some c => exact handChange_monitor c u
  have moved := (setZoneRt_monitor z { zoneOf s z with state := new } s).trans
    ((offer_monitor (.zone z (zoneOf s z).state new (zoneOf (setZoneRt z { zoneOf s z with state := new } s) z).lastReading cause)
      _).trans ((hand (zoneClass (zoneOf s z).state new) _).trans (reevalZoneExits_monitor z _)))
  unfold changeZone; dsimp only; split
  · exact moved.trans (requestAlarm_monitor z _)
  · exact moved

theorem judgeClear_monitor (z : ZoneId) (level : Byte) (s : State) : MonitorMove s (judgeClear z level s) := by
  unfold judgeClear; split
  · split
    · exact (setZoneRt_monitor z _ s).trans (changeZone_monitor z _ _ _)
    · exact changeZone_monitor z _ _ s
  · exact .refl s

theorem judgeSuspect_monitor (z : ZoneId) (level : Byte) (s : State) : MonitorMove s (judgeSuspect z level s) := by
  unfold judgeSuspect; split
  · exact (setZoneRt_monitor z _ s).trans (changeZone_monitor z _ _ _)
  · split
    · exact setZoneRt_monitor z _ s
    · split
      · exact setZoneRt_monitor z _ s
      · exact .refl s

theorem judge_monitor (z : ZoneId) (level : Byte) (s : State) : MonitorMove s (judge z level s) := by
  unfold judge; split
  · exact judgeClear_monitor z level s
  · exact judgeSuspect_monitor z level s
  · split
    · exact .refl s
    · exact (setZoneRt_monitor z _ s).trans (changeZone_monitor z _ _ _)
  · split
    · exact (setZoneRt_monitor z _ s).trans (changeZone_monitor z _ _ _)
    · exact .refl s
  · exact (changeZone_monitor z _ _ s).trans (judgeClear_monitor z level _)

theorem takeReading_monitor (z : ZoneId) (level : Byte) (s : State) : MonitorMove s (takeReading z level s) := by
  have judged := (setZoneRt_monitor z { zoneOf s z with lastReading := some level } s).trans (judge_monitor z level _)
  unfold takeReading restartSilence; split
  · exact judged.trans (setZoneRt_monitor z _ _)
  · exact judged

theorem takeReadings_monitor (entries : List (Byte × Byte)) (s : State) : MonitorMove s (takeReadings entries s).2 := by
  induction entries generalizing s with
  | nil => exact .refl s
  | cons e rest ih =>
    unfold takeReadings; split
    · exact (takeReading_monitor _ _ s).trans (ih _)
    · exact ih s

theorem zoneReadings_monitor (entries : List (Byte × Byte)) (s : State) : MonitorMove s (zoneReadings entries s).state := by
  unfold zoneReadings; split
  · exact .refl s
  · exact takeReadings_monitor entries s

theorem stopTimers_monitor (z : ZoneId) (s : State) : MonitorMove s (stopTimers z s) :=
  (setZoneRt_monitor z _ s).trans ((setZoneRt_monitor z _ _).trans (setZoneRt_monitor z _ _))

theorem confirmZone_monitor (index : Byte) (s : State) : MonitorMove s (confirmZone index s).state := by
  unfold confirmZone; split
  · exact .refl s
  · next z _ =>
    show MonitorMove s (if (zoneOf s z).state = .smoke then stopTimers z s else changeZone z .smoke .confirmZone (stopTimers z s))
    split
    · exact stopTimers_monitor z s
    · exact (stopTimers_monitor z s).trans (changeZone_monitor z _ _ _)

theorem confirmExpiry_monitor (z : ZoneId) (s : State) : MonitorMove s (confirmExpiry z s) := by
  unfold confirmExpiry; split
  · exact .refl s
  · next t _ =>
    have stopped : MonitorMove s (stopConfirm z (reachTime t s)) := (reachTime_monitor t s).trans (setZoneRt_monitor z _ _)
    dsimp only; split
    · exact stopped.trans ((setZoneRt_monitor z _ _).trans (changeZone_monitor z _ _ _))
    · exact stopped

theorem clearHoldExpiry_monitor (z : ZoneId) (s : State) : MonitorMove s (clearHoldExpiry z s) := by
  unfold clearHoldExpiry; split
  · exact .refl s
  · next t _ =>
    have stopped : MonitorMove s (stopClearHold z (reachTime t s)) := (reachTime_monitor t s).trans (setZoneRt_monitor z _ _)
    dsimp only; split
    · split
      · exact stopped.trans ((setZoneRt_monitor z _ _).trans (changeZone_monitor z _ _ _))
      · exact stopped.trans (changeZone_monitor z _ _ _)
    · exact stopped

theorem silenceExpiry_monitor (z : ZoneId) (s : State) : MonitorMove s (silenceExpiry z s) := by
  unfold silenceExpiry; split
  · exact .refl s
  · next t _ =>
    have stopped : MonitorMove s (stopSilence z (reachTime t s)) := (reachTime_monitor t s).trans (setZoneRt_monitor z _ _)
    dsimp only; split
    · exact stopped.trans ((setZoneRt_monitor z _ _).trans (changeZone_monitor z _ _ _))
    · exact stopped

/-! ## The route engine -/

theorem endSweep_monitor (s : State) : MonitorMove s (endSweep s) := by
  obtain ⟨g, h⟩ := endSweep_frame s
  rw [h]; exact setEngine_monitor g s

theorem endSelection_monitor (s : State) : MonitorMove s (endSelection s) := by
  obtain ⟨g, h⟩ := endSelection_frame s
  rw [h]; exact setEngine_monitor g s

theorem publishTable_monitor (table : RouteTable) (s : State) : MonitorMove s (publishTable table s) :=
  (replaceTable_monitor _ s).trans ((recomputeAll_monitor _).trans ((offer_monitor _ _).trans (setEngine_monitor _ _)))

theorem publish_monitor (s : State) : MonitorMove s (publish s) := by
  have after (u : State) : MonitorMove u (afterPublication u) := by
    unfold afterPublication; split
    · exact startRun_monitor u
    · exact setEngine_monitor _ u
  unfold publish; split
  · exact (publishTable_monitor _ s).trans (after _)
  · exact .refl s

theorem disarmEngine_monitor (s : State) : MonitorMove s (disarmEngine s) := by
  unfold disarmEngine; split
  · exact (publishTable_monitor _ s).trans (clearEngine_monitor _)
  · exact clearEngine_monitor s

/-! ## What a change of mode starts -/

theorem guardSilences_monitor (s : State) : MonitorMove s (guardSilences s) := by
  refine .forEach _ (fun z t => ?_) s
  unfold guardSilence; split
  · exact setZoneRt_monitor z _ t
  · exact .refl t

theorem enterGuard_monitor (s : State) : MonitorMove s (enterGuard s) := by
  unfold enterGuard requestOnEntry; split
  · exact (guardSilences_monitor s).trans (requestAlarm_monitor _ _)
  · exact guardSilences_monitor s

theorem restartGuard_monitor (s : State) : MonitorMove s (restartGuard s) := by
  unfold restartGuard; split
  · exact (enterGuard_monitor s).trans (startRun_monitor _)
  · exact .refl s

theorem loadBias_monitor (e : ExitId) (s : State) : MonitorMove s (loadBias e s) := by
  unfold loadBias; split
  · exact setExitRt_moves (.inr (.inr rfl))
  · exact .refl s

theorem restartExit_monitor (e : ExitId) (s : State) : MonitorMove s (restartExit e s) := by
  unfold restartExit; split
  · exact (reevalExit_monitor false e _).after (setExitRt_moves (.inr (.inr rfl)))
  · exact .refl s

/-- A change of mode writes the mode, and what follows it writes nothing that its action does not (R151). -/
theorem changeMode_monitor (new : Mode) (cause : ModeCause) (outcome : ModeOutcome) (zone : Option ZoneId)
    {act : State → State} (h : ∀ u, MonitorMove u (act u)) (s : State) :
    MonitorMove { s with mode := new } (changeMode new cause outcome zone act s) :=
  (offer_monitor _ { s with mode := new }).trans ((h _).trans (recomputeAll_monitor _))

end Sys2Proof.Machine
end

section
/-! What the head manager's operations make of a head's record, one function on the record for each, and that every record
keeps its limits (Table 7.1, R125, R131). -/

namespace Sys2Proof.Machine

/-! ## Rewriting one record -/

theorem change_change {α : Type} {n : Nat} (v : Vector α n) (i : Fin n) (f g : α → α) :
    change (change v i f) i g = change v i (g ∘ f) := by
  apply table_ext; intro j; simp only [look_change]; split <;> rfl

theorem change_self {α : Type} {n : Nat} {v : Vector α n} {i : Fin n} {f : α → α} (h : f (look v i) = look v i) :
    change v i f = v := by
  unfold change; rw [h, store_look]

/-- The head manager acts, and of the records and lists it rewrites one record alone. -/
structure RewritesHead (h : HeadId) (f : Head → Head) (s t : State) : Prop where
  moves : HeadsMove s t
  heads : t.heads = { s.heads with records := change s.heads.records h f }

theorem RewritesHead.trans {h : HeadId} {f g : Head → Head} {s t u : State} (a : RewritesHead h f s t)
    (b : RewritesHead h g t u) : RewritesHead h (g ∘ f) s u :=
  ⟨a.moves.trans b.moves, by rw [b.heads, a.heads]; simp only [change_change]⟩

/-- A move that leaves every record. -/
theorem RewritesHead.rest {h : HeadId} {s t : State} (moves : HeadsMove s t) (heads : t.heads = s.heads) :
    RewritesHead h id s t :=
  ⟨moves, by rw [heads, change_self rfl]⟩

theorem RewritesHead.refl (h : HeadId) (s : State) : RewritesHead h id s s := .rest (.refl s) rfl

theorem RewritesHead.headOf {h : HeadId} {f : Head → Head} {s t : State} (a : RewritesHead h f s t) (k : HeadId) :
    headOf t k = if h = k then f (headOf s k) else headOf s k := by
  unfold Machine.headOf; rw [a.heads]; exact look_change ..

theorem HeadsMove.map {s t : State} (h : HeadsMove s t) : t.map = s.map := by
  obtain ⟨m, d, q, l, rfl⟩ := h; rfl

theorem setHead_rewrites (h : HeadId) (f : Head → Head) (s : State) : RewritesHead h f s (setHead h (f (headOf s h)) s) :=
  ⟨setHead_moves h _ s, rfl⟩

theorem refreshHead_rewrites (h : HeadId) (s : State) : RewritesHead h id s (refreshHead h s) := by
  obtain ⟨d, q, e⟩ := refreshHead_frame h s
  exact .rest (refreshHead_moves h s) (by rw [e])

theorem offer_rewrites (h : HeadId) (n : Notice) (s : State) : RewritesHead h id s (offer n s) := .rest (offer_moves n s) rfl

theorem dropDisplay_rewrites (h : HeadId) (s : State) : RewritesHead h id s (dropDisplay h s) :=
  .rest (dropDisplay_moves h s) rfl

/-- The record of a head with its test ended. -/
def untested (r : Head) : Head := { r with testPending := false }

theorem endTest_rewrites (h : HeadId) (s : State) : RewritesHead h untested s (endTest h s) := by
  refine ⟨endTest_moves h s, ?_⟩
  unfold endTest; split
  · rfl
  · next hp =>
    rw [change_self]
    show untested (headOf s h) = headOf s h
    rw [untested, ← Bool.eq_false_of_not_eq_true hp]

theorem testDone_rewrites (h : HeadId) (st : AckStatus) (s : State) : RewritesHead h untested s (testDone h st s) := by
  refine ⟨testDone_moves h st s, ?_⟩
  unfold testDone; split
  · rfl
  · next hp =>
    rw [change_self]
    show untested (headOf s h) = headOf s h
    rw [untested, ← Bool.eq_false_of_not_eq_true hp]

theorem enterLoading_rewrites (h : HeadId) (s : State) :
    RewritesHead h ((fun r => { r with state := .loading, loaded := [] }) ∘ untested) s (enterLoading h s) :=
  (endTest_rewrites h s).trans (setHead_rewrites h (fun r => { r with state := .loading, loaded := [] }) (endTest h s))

theorem enterFailed_rewrites (h : HeadId) (s : State) :
    RewritesHead h ((fun r => { r with state := .failed, waitCount := 0 }) ∘ untested) s (enterFailed h s) :=
  (endTest_rewrites h s).trans
    ((setHead_rewrites h (fun r => { r with state := .failed, waitCount := 0 }) (endTest h s)).trans
      (dropDisplay_rewrites h _))

theorem enterAbsent_rewrites (keep : Bool) (h : HeadId) (s : State) :
    RewritesHead h (absentRecord keep) s (enterAbsent keep h s) := by
  have e := (endTest_rewrites h s).trans ((setHead_rewrites h (fun _ => absentRecord keep (headOf s h)) (endTest h s)).trans
    (dropDisplay_rewrites h _))
  exact ⟨e.moves, e.heads⟩

theorem enterJoining_rewrites (h : HeadId) (a : Option Abilities) (s : State) :
    RewritesHead h (joiningRecord a) s (enterJoining h a s) := by
  have e := (endTest_rewrites h s).trans ((setHead_rewrites h (fun _ => joiningRecord a (headOf s h)) (endTest h s)).trans
    (dropDisplay_rewrites h _))
  exact ⟨e.moves, e.heads⟩

theorem headFault_rewrites (h : HeadId) (c : FaultCause) (s : State) :
    RewritesHead h (untested ∘ fun r => { countFault c r with state := .recovering }) s (headFault h c s) :=
  (setHead_rewrites h (fun r => { countFault c r with state := .recovering }) s).trans
    ((endTest_rewrites h _).trans ((offer_rewrites h _ _).trans (refreshHead_rewrites h _)))

theorem confirmDisplay_rewrites (h : HeadId) (d : Option Display) (s : State) :
    RewritesHead h (fun r => { r with confirmed := d.or r.confirmed }) s (confirmDisplay h d s) := by
  cases d with
  | none => exact .refl h s
  | some d => exact ⟨confirmDisplay_moves h (some d) s, rfl⟩

/-! ## Records in their limits -/

theorem noWaits : 0 < Config.waitLimit := by decide

/-- A record keeps its limits, and the head of an undefined placement is ABSENT. -/
structure RecordSound (placed : Bool) (r : Head) : Prop where
  placed : placed = false → r.state = .absent
  test : r.testPending = true → r.state = .serving
  waits : r.waitCount < Config.waitLimit
  faults : r.faultCount ≤ Config.faultLimit

theorem HeadsSound.record {s : State} (hs : HeadsSound s) (h : HeadId) :
    RecordSound (placementOf s h).defined (headOf s h) :=
  ⟨hs.placed h, hs.test h, hs.waits h, hs.faults h⟩

/-- The stranger list keeps its limit and holds no serial twice (R121). -/
structure StrangersSound (l : List Stranger) : Prop where
  length : l.length ≤ Config.strangerCapacity
  distinct : (l.map Stranger.serial).Nodup

theorem HeadsSound.list {s : State} (hs : HeadsSound s) : StrangersSound s.heads.strangers := ⟨hs.strangers, hs.distinct⟩

theorem HeadsSound.of {s : State} (hr : ∀ h, RecordSound (placementOf s h).defined (headOf s h))
    (hl : StrangersSound s.heads.strangers) : HeadsSound s :=
  ⟨fun h => (hr h).placed, fun h => (hr h).test, fun h => (hr h).waits, fun h => (hr h).faults, hl.length, hl.distinct⟩

/-- Only placements and the head manager matter. -/
theorem HeadsSound.congr {s t : State} (hs : HeadsSound s) (hp : t.map.placements = s.map.placements)
    (hh : t.heads = s.heads) : HeadsSound t := by
  have place (h : HeadId) : placementOf t h = placementOf s h := by unfold placementOf; rw [hp]
  have record (h : HeadId) : headOf t h = headOf s h := by unfold headOf; rw [hh]
  exact .of (fun h => by rw [place, record]; exact hs.record h) (by rw [hh]; exact hs.list)

theorem HeadsSound.rewrite {h : HeadId} {f : Head → Head} {s t : State} (hs : HeadsSound s) (k : RewritesHead h f s t)
    (hf : RecordSound (placementOf s h).defined (f (headOf s h))) : HeadsSound t := by
  refine .of (fun i => ?_) (by rw [k.heads]; exact hs.list)
  rw [show placementOf t i = placementOf s i by unfold placementOf; rw [k.moves.map], k.headOf]
  split
  · next e => subst e; exact hf
  · exact hs.record i

/-- Every record is sound and that of a head is not ABSENT. -/
structure HeadLive (h : HeadId) (s : State) : Prop where
  sound : HeadsSound s
  live : (headOf s h).state ≠ .absent

theorem HeadLive.of_state {h : HeadId} {s : State} {st : HeadState} (hs : HeadsSound s) (e : (headOf s h).state = st)
    (ne : st ≠ .absent) : HeadLive h s := ⟨hs, e ▸ ne⟩

/-- A live head's record is rewritten within its limits, and stays live. -/
theorem HeadLive.rewrite {h : HeadId} {f : Head → Head} {s t : State} (a : HeadLive h s) (k : RewritesHead h f s t)
    (live : (f (headOf s h)).state ≠ .absent)
    (test : (f (headOf s h)).testPending = true → (f (headOf s h)).state = .serving)
    (waits : (f (headOf s h)).waitCount < Config.waitLimit) (faults : (f (headOf s h)).faultCount ≤ Config.faultLimit) :
    HeadLive h t := by
  refine ⟨a.sound.rewrite k ⟨fun e => absurd (a.sound.placed h e) a.live, test, waits, faults⟩, ?_⟩
  rw [k.headOf, if_pos rfl]; exact live

/-- The rewriting keeps state, test, wait count and fault count. -/
theorem HeadLive.quiet {h : HeadId} {f : Head → Head} {s t : State} (a : HeadLive h s) (k : RewritesHead h f s t)
    (hf : (f (headOf s h)).state = (headOf s h).state ∧ (f (headOf s h)).testPending = (headOf s h).testPending
      ∧ (f (headOf s h)).waitCount = (headOf s h).waitCount ∧ (f (headOf s h)).faultCount = (headOf s h).faultCount) :
    HeadLive h t := by
  obtain ⟨hst, ht, hw, hc⟩ := hf
  exact a.rewrite k (by rw [hst]; exact a.live) (by rw [hst, ht]; exact a.sound.test h) (by rw [hw]; exact a.sound.waits h)
    (by rw [hc]; exact a.sound.faults h)

theorem HeadLive.refresh {h : HeadId} {s : State} (a : HeadLive h s) : HeadLive h (refreshHead h s) :=
  a.quiet (refreshHead_rewrites h s) ⟨rfl, rfl, rfl, rfl⟩

theorem HeadLive.refreshIf {h : HeadId} {s : State} (a : HeadLive h s) (c : Bool) : HeadLive h (refreshIf c h s) := by
  unfold Machine.refreshIf; split; exacts [a.refresh, a]

theorem HeadLive.offer {h : HeadId} {s : State} (a : HeadLive h s) (n : Notice) : HeadLive h (offer n s) :=
  a.quiet (offer_rewrites h n s) ⟨rfl, rfl, rfl, rfl⟩

theorem HeadLive.enterLoading {h : HeadId} {s : State} (a : HeadLive h s) : HeadLive h (enterLoading h s) :=
  a.rewrite (enterLoading_rewrites h s) nofun nofun (a.sound.waits h) (a.sound.faults h)

theorem HeadLive.enterFailed {h : HeadId} {s : State} (a : HeadLive h s) : HeadLive h (enterFailed h s) :=
  a.rewrite (enterFailed_rewrites h s) nofun nofun noWaits (a.sound.faults h)

theorem HeadLive.testDone {h : HeadId} {s : State} (a : HeadLive h s) (st : AckStatus) : HeadLive h (testDone h st s) :=
  a.rewrite (testDone_rewrites h st s) a.live nofun (a.sound.waits h) (a.sound.faults h)

theorem HeadLive.confirm {h : HeadId} {s : State} (a : HeadLive h s) (d : Option Display) :
    HeadLive h (confirmDisplay h d s) :=
  a.quiet (confirmDisplay_rewrites h d s) ⟨rfl, rfl, rfl, rfl⟩

theorem HeadLive.takeStatus {h : HeadId} {s : State} (a : HeadLive h s) (st : AckStatus) : HeadLive h (takeStatus h st s) :=
  a.rewrite (setHead_rewrites h (fun r => { r with faultMask := st.mask, generation := st.generation, waitCount := 0 }) s)
    a.live (a.sound.test h) noWaits (a.sound.faults h)

theorem HeadLive.noteFault {h : HeadId} {s : State} (a : HeadLive h s) (c : FaultCause) : HeadLive h (noteFault h c s) :=
  a.rewrite (setHead_rewrites h (countFault c) s) a.live (a.sound.test h) noWaits (Nat.min_le_left _ _)

theorem HeadLive.headFault {h : HeadId} {s : State} (a : HeadLive h s) (c : FaultCause) : HeadLive h (headFault h c s) :=
  a.rewrite (headFault_rewrites h c s) nofun nofun noWaits (Nat.min_le_left _ _)

theorem HeadLive.resyncFault {h : HeadId} {s : State} (a : HeadLive h s) (c : FaultCause) :
    HeadLive h (resyncFault h c s) :=
  ((a.noteFault c).enterFailed).offer _

theorem takenOf_wait {r : Head} {w : WindowClass} (h : takenOf r w = .wait) : r.waitCount + 1 < Config.waitLimit := by
  unfold takenOf at h
  split at h <;> simp_all

theorem HeadLive.waitUp {h : HeadId} {s : State} (a : HeadLive h s) (room : (headOf s h).waitCount + 1 < Config.waitLimit) :
    HeadLive h (waitUp h s) :=
  a.rewrite (setHead_rewrites h (fun r => { r with waitCount := r.waitCount + 1 }) s) a.live (a.sound.test h) room
    (a.sound.faults h)

theorem HeadLive.heldByWait {h : HeadId} {s : State} (a : HeadLive h s) (c : BusCommand) (o : Bool) :
    HeadLive h (heldByWait h c o s) := by
  refine a.quiet (f := id) (.rest (heldByWait_moves h c o s) ?_) ⟨rfl, rfl, rfl, rfl⟩
  unfold Machine.heldByWait; split
  · split <;> rfl
  · rfl

theorem HeadLive.assignAck {h : HeadId} {s : State} (a : HeadLive h s) : HeadLive h (assignAck h s) := by
  have b := a.enterLoading
  exact (b.rewrite (setHead_rewrites h (fun r => { r with confirmed := none, generation := none, waitCount := 0 }) _) b.live
    (b.sound.test h) noWaits (b.sound.faults h)).refresh

/-- An ACK to a SCRIPT leaves the record in its limits; what it brings to SERVING was in LOADING (R123). -/
theorem HeadLive.scriptAck {h : HeadId} {s : State} (a : HeadLive h s) (e : (headOf s h).state = .loading) (g sc b : Byte) :
    HeadLive h (scriptAck h g sc b s) := by
  have idle : (headOf s h).testPending ≠ true := fun t => by rw [a.sound.test h t] at e; exact absurd e nofun
  unfold Machine.scriptAck; dsimp only; split
  · exact a.rewrite (setHead_rewrites h (fun r => { r with waitCount := 0 }) s) a.live (a.sound.test h) noWaits
      (a.sound.faults h)
  · split
    · exact ((a.rewrite (setHead_rewrites h (fun r => { r with waitCount := 0, generation := some g, state := .serving }) s)
        nofun (fun _ => rfl) noWaits (a.sound.faults h)).offer _).refresh
    · exact a.rewrite (setHead_rewrites h
        (fun r => { r with waitCount := 0, loaded := addBlock (sc.toNat, b.toNat) r.loaded }) s) a.live
        (fun t => absurd t idle) noWaits (a.sound.faults h)

theorem HeadLive.servingAck {h : HeadId} {s : State} (a : HeadLive h s) (c : BusCommand) (st : AckStatus) :
    HeadLive h (servingAck h c st s) := by
  have taken := (a.confirm (carriedDisplay c)).takeStatus st
  have tested : HeadLive h (if c = .test then Machine.testDone h st (Machine.takeStatus h st (confirmDisplay h (carriedDisplay c) s))
      else Machine.takeStatus h st (confirmDisplay h (carriedDisplay c) s)) := by
    split; exacts [taken.testDone st, taken]
  unfold Machine.servingAck; dsimp only; split
  · exact tested.enterLoading.refreshIf _
  · exact tested.refreshIf _

theorem HeadLive.resyncAck {h : HeadId} {s : State} (a : HeadLive h s) (d : Option Display) (st : AckStatus) :
    HeadLive h (resyncAck h d st s) := by
  have taken := (a.confirm d).takeStatus st
  unfold Machine.resyncAck; dsimp only; split
  · exact ((taken.rewrite (setHead_rewrites h (fun r => { r with state := .serving }) _) nofun (fun _ => rfl)
      (taken.sound.waits h) (taken.sound.faults h)).offer _).refresh
  · exact taken.enterLoading.refresh

/-- A head enters ABSENT (R118). -/
theorem HeadsSound.enterAbsent {s : State} (hs : HeadsSound s) (keep : Bool) (h : HeadId) :
    HeadsSound (enterAbsent keep h s) := by
  refine hs.rewrite (enterAbsent_rewrites keep h s) ?_
  unfold absentRecord; split
  · exact ⟨fun _ => rfl, nofun, noWaits, hs.faults h⟩
  · exact ⟨fun _ => rfl, nofun, noWaits, Nat.zero_le _⟩

/-! ## Outcomes of commands -/

/-- An outcome keeps every record in its limits where its three cases do: a WAIT is taken below its limit alone (R125). -/
theorem headsSound_of_taken {h : HeadId} {s : State} {w : WindowClass} {f : Taken → State → State}
    (ack : ∀ st, HeadsSound (f (.ack st) s)) (wait : (headOf s h).waitCount + 1 < Config.waitLimit → HeadsSound (f .wait s))
    (fault : ∀ c, HeadsSound (f (.fault c) s)) : HeadsSound (f (takenOf (headOf s h) w) s) := by
  cases e : takenOf (headOf s h) w with
  | ack st => exact ack st
  | wait => exact wait (takenOf_wait e)
  | fault c => exact fault c

section Outcomes
variable {h : HeadId} {s : State} (a : HeadLive h s) (w : WindowClass)
include a

theorem HeadLive.assignOutcome : HeadsSound (assignOutcome h (takenOf (headOf s h) w) s) :=
  headsSound_of_taken (f := Machine.assignOutcome h) (fun _ => a.assignAck.sound) (fun room => (a.waitUp room).sound)
    fun c => (a.noteFault c).sound.enterAbsent true h

theorem HeadLive.observedAssign : HeadsSound (observedAssign h (takenOf (headOf s h) w) s) :=
  headsSound_of_taken (f := Machine.observedAssign h) (fun _ => a.assignAck.sound) (fun _ => a.sound) fun _ => a.sound

theorem HeadLive.scriptOutcome (e : (headOf s h).state = .loading) (g sc b : Byte) :
    HeadsSound (scriptOutcome h g sc b (takenOf (headOf s h) w) s) :=
  headsSound_of_taken (f := Machine.scriptOutcome h g sc b) (fun _ => (a.scriptAck e g sc b).sound)
    (fun room => (a.waitUp room).sound) fun c => (a.headFault c).sound

theorem HeadLive.observedScript (g sc b : Byte) : HeadsSound (observedScript h g sc b (takenOf (headOf s h) w) s) := by
  refine headsSound_of_taken (f := Machine.observedScript h g sc b) (fun _ => ?_) (fun room => (a.waitUp room).sound)
    fun c => ?_
  · refine (a.enterLoading.refresh.scriptAck ?_ g sc b).sound
    rw [(refreshHead_rewrites h _).headOf, if_pos rfl, id, (enterLoading_rewrites h s).headOf, if_pos rfl]; rfl
  · show HeadsSound (if (headOf s h).state = .serving then Machine.headFault h c s else Machine.noteFault h c s)
    split
    · exact (a.headFault c).sound
    · exact (a.noteFault c).sound

theorem HeadLive.servingOutcome (c : BusCommand) (o : Bool) :
    HeadsSound (servingOutcome h c o (takenOf (headOf s h) w) s) :=
  headsSound_of_taken (f := Machine.servingOutcome h c o) (fun st => (a.servingAck c st).sound)
    (fun room => ((a.waitUp room).heldByWait c o).sound) fun x => (a.headFault x).sound

theorem HeadLive.loadingOutcome (c : BusCommand) (o : Bool) :
    HeadsSound (loadingOutcome h c o (takenOf (headOf s h) w) s) :=
  headsSound_of_taken (f := Machine.loadingOutcome h c o) (fun st => (((a.confirm _).takeStatus st).refreshIf _).sound)
    (fun room => ((a.waitUp room).heldByWait c o).sound) fun x => (a.headFault x).sound

theorem HeadLive.observedRecovering (c : BusCommand) : HeadsSound (observedRecovering h c (takenOf (headOf s h) w) s) :=
  headsSound_of_taken (f := Machine.observedRecovering h c) (fun st => (a.resyncAck _ st).sound)
    (fun room => (a.waitUp room).sound) fun x => (a.noteFault x).sound

theorem HeadLive.resyncOutcome (d : Display) : HeadsSound (resyncOutcome h d (takenOf (headOf s h) w) s) :=
  headsSound_of_taken (f := Machine.resyncOutcome h d) (fun st => (a.resyncAck _ st).sound)
    (fun room => (a.waitUp room).sound) fun x => (a.resyncFault x).sound

end Outcomes

/-- The outcome of a command of the part's own slot (R113): only a live record takes one. -/
theorem HeadsSound.ownOutcome {s : State} (hs : HeadsSound s) (h : HeadId) (c : BusCommand) (w : WindowClass) :
    HeadsSound (ownOutcome h c w s) := by
  have live {st : HeadState} (e : (headOf s h).state = st) (ne : st ≠ .absent) : HeadLive h s := .of_state hs e ne
  unfold Machine.ownOutcome
  generalize e : (headOf s h).state = st
  cases c <;> cases st <;> dsimp only
  case assign.joining => exact (live e nofun).assignOutcome w
  case script.loading => exact (live e nofun).scriptOutcome w e _ _ _
  case display.serving | poll.serving | test.serving => exact (live e nofun).servingOutcome w _ _
  case display.loading | poll.loading | test.loading => exact (live e nofun).loadingOutcome w _ _
  case resync.recovering => exact (live e nofun).resyncOutcome w _
  all_goals exact hs

/-- The outcome of an observed command (Table 8.4): only a live record takes one. -/
theorem HeadsSound.observedOutcome {s : State} (hs : HeadsSound s) (h : HeadId) (c : BusCommand) (w : WindowClass) :
    HeadsSound (observedOutcome h c w s) := by
  have live {st : HeadState} (e : (headOf s h).state = st) (ne : st ≠ .absent) : HeadLive h s := .of_state hs e ne
  unfold Machine.observedOutcome
  generalize e : (headOf s h).state = st
  cases c <;> cases st <;> dsimp only
  case assign.joining => exact (live e nofun).assignOutcome w
  case assign.loading | assign.serving | assign.recovering => exact (live e nofun).observedAssign w
  case script.loading => exact (live e nofun).scriptOutcome w e _ _ _
  case script.serving | script.recovering => exact (live e nofun).observedScript w _ _ _
  case display.serving | poll.serving | test.serving => exact (live e nofun).servingOutcome w _ _
  case display.loading | poll.loading | test.loading => exact (live e nofun).loadingOutcome w _ _
  case display.recovering | poll.recovering | test.recovering => exact (live e nofun).observedRecovering w _
  case resync.recovering | resync.loading | resync.serving => exact (live e nofun).resyncOutcome w _
  all_goals exact hs

/-! ## Announcements -/

theorem HeadsSound.setList {s : State} (hs : HeadsSound s) {l : List Stranger} (x : Option Serial) (hl : StrangersSound l) :
    HeadsSound { s with heads := { s.heads with strangers := l, lastFaulty := x } } :=
  .of hs.record hl

theorem HeadsSound.offer {s : State} (hs : HeadsSound s) (n : Notice) : HeadsSound (offer n s) := hs.congr rfl rfl

/-- A new stranger takes the last place of the list, of which the oldest entry has made room where it was full (R121). -/
theorem StrangersSound.append {l : List Stranger} (hl : StrangersSound l) (x : Stranger)
    (new : ¬l.any (fun y => y.serial == x.serial)) :
    StrangersSound ((if Config.strangerCapacity ≤ l.length then l.drop 1 else l) ++ [x]) := by
  have absent : x.serial ∉ l.map Stranger.serial := by
    intro m
    obtain ⟨y, hy, e⟩ := List.mem_map.mp m
    exact new (List.any_eq_true.mpr ⟨y, hy, by simpa using e⟩)
  have add (k : List Stranger) (sub : k.Sublist l) (short : k.length < Config.strangerCapacity) : StrangersSound (k ++ [x]) := by
    refine ⟨by simpa using short, ?_⟩
    rw [List.map_append, List.nodup_append]
    refine ⟨hl.distinct.sublist (sub.map _), by simp, fun a ha b hb e => absent ?_⟩
    rw [List.map_singleton, List.mem_singleton] at hb
    exact (sub.map Stranger.serial).subset (hb ▸ e ▸ ha)
  have := hl.length
  split
  · exact add _ (List.drop_sublist 1 l) (by rw [List.length_drop]; unfold Config.strangerCapacity at *; omega)
  · exact add l (List.Sublist.refl l) (by omega)

theorem StrangersSound.update {l : List Stranger} (hl : StrangersSound l) (f : Stranger → Stranger)
    (hf : ∀ x, (f x).serial = x.serial) : StrangersSound (l.map f) := by
  refine ⟨by simpa using hl.length, ?_⟩
  rw [List.map_map, show Stranger.serial ∘ f = Stranger.serial from funext hf]
  exact hl.distinct

theorem StrangersSound.filter {l : List Stranger} (hl : StrangersSound l) (p : Stranger → Bool) :
    StrangersSound (l.filter p) :=
  ⟨(List.length_filter_le p l).trans hl.length, hl.distinct.sublist (List.filter_sublist.map _)⟩

theorem HeadsSound.strangerHeard {s : State} (hs : HeadsSound s) (serial : Serial) (a : Abilities) :
    HeadsSound (strangerHeard serial a s) := by
  unfold Machine.strangerHeard; dsimp only; split
  · exact hs.setList s.heads.lastFaulty (hs.list.update _ fun x => by split <;> rfl)
  · next new =>
    refine HeadsSound.offer (hs.setList s.heads.lastFaulty ?_) _
    have := hs.list.append ⟨serial, a⟩ new
    simpa using this

theorem placementWith_defined {s : State} {serial : Serial} {h : HeadId} (e : placementWith s serial = some h) :
    (placementOf s h).defined = true := by
  have := firstIndex_some e
  simp only [Bool.and_eq_true] at this
  exact this.1

/-- An announcement is taken for a defined placement alone (R119, R120). -/
theorem HeadsSound.acceptedAnnouncement {s : State} (hs : HeadsSound s) (serial : Serial) (a : Abilities) :
    HeadsSound (acceptedAnnouncement serial a s) := by
  unfold Machine.acceptedAnnouncement; split
  · exact hs.strangerHeard serial a
  · next h e =>
    have placed := placementWith_defined e
    split
    · split
      · next e => exact ((HeadLive.of_state hs e nofun).quiet
          (setHead_rewrites h (fun r => { r with abilities := some a }) s) ⟨rfl, rfl, rfl, rfl⟩).sound
      · next e =>
        have b := (HeadLive.of_state hs e nofun).quiet
          (setHead_rewrites h (fun r => { r with abilities := some a, announced := true }) s) ⟨rfl, rfl, rfl, rfl⟩
        unfold failedAnnounces; dsimp only; split
        · exact b.sound
        · exact (b.offer _).sound
      · exact hs.rewrite (enterJoining_rewrites h (some a) s)
          ⟨fun e => by rw [placed] at e; exact absurd e nofun, nofun, noWaits, hs.faults h⟩
    · exact hs

theorem HeadsSound.announce {s : State} (hs : HeadsSound s) (serial : Serial) (a : Abilities) :
    HeadsSound (announce serial a s) := by
  unfold Machine.announce; split
  · unfold enrolFaulty; split
    · exact hs
    · exact (hs.setList (some serial) hs.list).offer _
  · exact hs.acceptedAnnouncement serial a

/-! ## Library edits, release, TEST HEAD and RESTORE HEAD -/

theorem HeadsSound.forEach {n : Nat} {f : Fin n → State → State} {s : State} (hs : HeadsSound s)
    (hf : ∀ i s, HeadsSound s → HeadsSound (f i s)) : HeadsSound (forEach n f s) := forEach_induct f s hs hf

theorem HeadsSound.reloadHead {s : State} (hs : HeadsSound s) (h : HeadId) : HeadsSound (reloadHead h s) := by
  unfold Machine.reloadHead; split
  · next e => exact (HeadLive.of_state hs e nofun).enterLoading.refresh.sound
  · exact hs.rewrite (setHead_rewrites h (fun r => { r with loaded := [] }) s)
      ⟨hs.placed h, hs.test h, hs.waits h, hs.faults h⟩

theorem HeadsSound.releaseHeads {s : State} (hs : HeadsSound s) : HeadsSound (releaseHeads s) := by
  have absent := hs.forEach (n := 64) fun h _ ht => ht.enterAbsent false h
  unfold Machine.releaseHeads
  generalize Machine.forEach 64 (Machine.enterAbsent false) s = u at absent ⊢
  exact (absent.setList (l := []) none ⟨Nat.zero_le _, List.nodup_nil⟩).congr rfl rfl

theorem HeadsSound.testHead {s : State} (hs : HeadsSound s) (index : Byte) : HeadsSound (testHead index s).state := by
  unfold Machine.testHead; split
  · exact hs
  · next h _ =>
    split
    · exact hs
    · next e =>
      split
      · exact hs
      · have serving : (headOf s h).state = .serving := by simpa using e
        exact ((HeadLive.of_state hs serving nofun).rewrite (setHead_rewrites h (fun r => { r with testPending := true }) s)
          (serving ▸ nofun) (fun _ => serving) (hs.waits h) (hs.faults h)).sound

theorem HeadsSound.restoreHead {s : State} (hs : HeadsSound s) (index : Byte) : HeadsSound (restoreHead index s).state := by
  unfold Machine.restoreHead; split
  · exact hs
  · next h _ =>
    split
    · exact hs
    · next e =>
      have failed : (headOf s h).state = .failed := by simpa using e
      have joined := (HeadLive.of_state hs failed nofun).rewrite (enterJoining_rewrites h (headOf s h).abilities s) nofun nofun
        noWaits (hs.faults h)
      exact (joined.rewrite (setHead_rewrites h (fun r => { r with faultCount := 0, lastReject := none }) _) joined.live
        (joined.sound.test h) (joined.sound.waits h) (Nat.zero_le _)).sound

end Sys2Proof.Machine
end

section
/-! What the commands of the sign bus, the head manager and the pair unit leave alone, and that they keep the head records
in their limits and the pair unit to Table 8.2. -/

namespace Sys2Proof.Machine

/-! ## The pair unit -/

/-- Only the pair unit and the release-all mark matter, which may be cleared. -/
theorem PairSound.congr {s t : State} (hs : PairSound s) (hp : t.pair = s.pair)
    (hb : t.bus.releaseAll = true → s.bus.releaseAll = true) : PairSound t := by
  obtain ⟨solo, hold, silence, guard, isolating, mismatch, lost, release⟩ := hs
  have drives : mayDrive t = mayDrive s := by unfold mayDrive; rw [hp]
  rw [← hp] at solo hold silence guard isolating mismatch lost
  exact ⟨solo, hold, silence, guard, isolating, mismatch, lost, fun h => drives.trans (release (hb h))⟩

/-- A controller in RESERVE or ISOLATED drives nothing: HOLD is released, no guard runs, the silence timer runs in RESERVE
alone, and no mark is held. -/
theorem PairSound.observing {t : State} {st : PairState} (e : t.pair.state = st) (hst : st = .reserve ∨ st = .isolated)
    (enabled : t.pair.enabled = true) (hold : t.pair.hold = false) (silence : t.pair.silence.isSome ↔ st = .reserve)
    (guard : t.pair.guard = none) (isolating : t.pair.isolating = false) (mismatch : t.pair.mismatch ≤ Config.mismatchLimit)
    (lost : t.pair.lost ≤ Config.lostLimit) (release : t.bus.releaseAll = false) : PairSound t := by
  refine ⟨?_, ?_, ?_, ?_, ?_, mismatch, lost, ?_⟩ <;>
    rcases hst with rfl | rfl <;> simp_all

section Pair
variable {s : State} (hs : PairSound s)
include hs

/-- A pair state other than SOLO is that of an enabled pair (R136). -/
theorem PairSound.enabled {st : PairState} (e : s.pair.state = st) (ne : st ≠ .solo) : s.pair.enabled = true := by
  have := hs.solo; rw [e] at this
  simpa using fun f => ne (this.mpr f)

/-- A controller that may not drive the bus holds no release-all mark (R101). -/
theorem PairSound.unmarked (e : mayDrive s = false) : s.bus.releaseAll = false := by
  simpa [e] using hs.release

theorem PairSound.notIsolating (h : s.pair.state ≠ .duty ∧ s.pair.state ≠ .yielding) : s.pair.isolating = false := by
  simpa [h.1, h.2] using hs.isolating

theorem PairSound.unguarded (h : s.pair.state ≠ .claiming) : s.pair.guard = none := by
  simpa [h] using hs.guard

theorem PairSound.giveUpClaim (e : s.pair.state = .claiming) (c : PairCause) : PairSound (giveUpClaim c s) :=
  .observing (st := .reserve) rfl (.inl rfl) (hs.enabled e nofun) rfl (by simp [Machine.giveUpClaim, offerPair]) rfl
    (hs.notIsolating (by simp [e])) hs.mismatch hs.lost (hs.unmarked (by simp [mayDrive, e]))

theorem PairSound.partnerFrame : PairSound (partnerFrame s) := by
  have report {u : State} (hu : PairSound u) (a b : Bool) :
      PairSound { u with pair := { u.pair with stuck := a, afterYield := b } } :=
    ⟨hu.solo, hu.hold, hu.silence, hu.guard, hu.isolating, hu.mismatch, hu.lost, hu.release⟩
  unfold Machine.partnerFrame; split
  · next e =>
    exact .observing (st := .reserve) e (.inl rfl) (hs.enabled e nofun) (by simpa [e] using hs.hold) (by simp)
      (hs.unguarded (by simp [e])) (hs.notIsolating (by simp [e])) hs.mismatch hs.lost (hs.unmarked (by simp [mayDrive, e]))
  · next e => exact (report hs false s.pair.afterYield).giveUpClaim e _
  · exact hs

theorem PairSound.counts {m n : Nat} (r : Option PartnerReport) (b : Option (List Byte)) (hm : m ≤ Config.mismatchLimit)
    (hn : n ≤ Config.lostLimit) :
    PairSound { s with pair := { s.pair with mismatch := m, lost := n, report := r, holdReply := b } } :=
  ⟨hs.solo, hs.hold, hs.silence, hs.guard, hs.isolating, hm, hn, hs.release⟩

theorem PairSound.offerPair (c : PairCause) (before : PairState) : PairSound (offerPair c before s) := hs.congr rfl id

theorem PairSound.compareDigests (d : Half) : PairSound (compareDigests d s) := by
  have raised := hs.counts s.pair.report s.pair.holdReply (Nat.min_le_left Config.mismatchLimit (s.pair.mismatch + 1)) hs.lost
  unfold Machine.compareDigests; split
  · exact hs.counts s.pair.report s.pair.holdReply (Nat.zero_le _) hs.lost
  · dsimp only; split
    · exact raised.offerPair _ _
    · exact raised

theorem PairSound.partnerOutcome (w : WindowClass) : PairSound (partnerOutcome w s) := by
  have raised := hs.counts s.pair.report s.pair.holdReply hs.mismatch (Nat.min_le_left Config.lostLimit (s.pair.lost + 1))
  have missed {u : State} (hu : PairSound u) : PairSound (missedExchange u) :=
    hu.counts u.pair.report u.pair.holdReply (Nat.zero_le _) hu.lost
  unfold Machine.partnerOutcome; split
  · exact (hs.counts (some _) s.pair.holdReply hs.mismatch (Nat.zero_le _)).compareDigests _
  · refine missed ?_
    unfold raiseLost; dsimp only; split
    · exact raised.offerPair _ _
    · exact raised

theorem PairSound.silenceEnds (ph : Bool) : PairSound (silenceEnds ph s) := by
  unfold Machine.silenceEnds; split
  · next e _ =>
    have unmarked := hs.unmarked (by simp [mayDrive, e])
    have enabled := hs.enabled e nofun
    dsimp only; split
    · have again (st : Bool) (u : State) (hu : PairSound u) (e : u.pair.state = .reserve) (n : Nat) :
          PairSound { u with pair := { u.pair with silence := some n, stuck := st } } :=
        .observing (st := .reserve) e (.inl rfl) (hu.enabled e nofun) (by simpa [e] using hu.hold) (by simp)
          (hu.unguarded (by simp [e])) (hu.notIsolating (by simp [e])) hu.mismatch hu.lost
          (hu.unmarked (by simp [mayDrive, e]))
      unfold partnerStuck; dsimp only; split
      · exact again s.pair.stuck (reachTime _ s) (hs.congr rfl id) e _
      · exact (again true (reachTime _ s) (hs.congr rfl id) e _).offerPair _ _
    · exact ⟨by simp [startClaim, enabled], by simp [startClaim], by simp [startClaim], by simp [startClaim],
        by simp [startClaim, hs.notIsolating (by simp [e])], hs.mismatch, hs.lost, by simp [startClaim, unmarked]⟩
  · exact hs

/-- Entry into DUTY (R140). -/
theorem PairSound.duty (e : s.pair.state = .claiming) :
    PairSound { s with pair := { s.pair with state := .duty, hold := true, guard := none, lost := 0, mismatch := 0 } } := by
  have idle : s.pair.silence = none := by simpa [e] using hs.silence
  have unmarked := hs.unmarked (by simp [mayDrive, e])
  have enabled := hs.enabled e nofun
  exact ⟨by simp [enabled], by simp, by simp [idle], by simp, by simp, Nat.zero_le _, Nat.zero_le _, by simp [unmarked]⟩

/-- The guard of a claim starts anew (R139). -/
theorem PairSound.secondGuard (e : s.pair.state = .claiming) (g : ClaimGuard) :
    PairSound { s with pair := { s.pair with guard := some g } } :=
  ⟨hs.solo, hs.hold, hs.silence, by simp [e], hs.isolating, hs.mismatch, hs.lost, hs.release⟩

theorem PairSound.yieldBus : PairSound (yieldBus s).state := by
  unfold Machine.yieldBus; split
  case h_1 e =>
    have enabled := hs.enabled e nofun
    have idle : s.pair.silence = none := by simpa [e] using hs.silence
    have stopped : s.pair.guard = none := by simpa [e] using hs.guard
    have held : s.pair.hold = true := by simp [hs.hold, e]
    exact ⟨by simp [taken, enabled], by simp [taken, held], by simp [taken, idle], by simp [taken, stopped], by simp [taken],
      hs.mismatch, hs.lost, by simp [taken, mayDrive]⟩
  all_goals exact hs

theorem PairSound.endYield (e : s.pair.state = .yielding) (quiet : s.pair.isolating = false) : PairSound (endYield s) :=
  .observing (st := .reserve) rfl (.inl rfl) (hs.enabled e nofun) rfl (by simp [Machine.endYield, Machine.offerPair])
    (hs.unguarded (by simp [e])) quiet hs.mismatch hs.lost rfl

theorem PairSound.enterIsolated (ne : s.pair.state ≠ .solo) : PairSound (enterIsolated s) :=
  .observing (st := .isolated) rfl (.inr rfl) (hs.enabled rfl ne) rfl (by simp [Machine.enterIsolated, Machine.offerPair]) rfl rfl
    hs.mismatch hs.lost rfl

theorem PairSound.isolateUnit : PairSound (isolateUnit s).state := by
  have mark (h : s.pair.state = .duty ∨ s.pair.state = .yielding) :
      PairSound { s with pair := { s.pair with isolating := true } } :=
    ⟨hs.solo, hs.hold, hs.silence, hs.guard, fun _ => h, hs.mismatch, hs.lost, hs.release⟩
  unfold Machine.isolateUnit; split
  · exact hs
  · exact hs
  · next e => exact hs.enterIsolated (by simp [e])
  · next e => exact hs.enterIsolated (by simp [e])
  · next e => exact mark (.inl e)
  · next e => exact mark (.inr e)

end Pair

/-! ## Moves of the bus, the heads and the pair -/

/-- The two states differ in the sign bus, the head manager, displays, the pair unit, the devices, the link and the clock
alone, and the move keeps the head records and the pair unit in order. -/
structure BusMove (s t : State) : Prop where
  frame : ∃ m d q l b p dv hd n, t = { s with
    heads := m, selector := { s.selector with desired := d }, queue := q, link := l, bus := b, pair := p, devices := dv
    heard := hd, now := n }
  heads : HeadsSound s → HeadsSound t
  pair : PairSound s → PairSound t

theorem BusMove.refl (s : State) : BusMove s s := ⟨⟨_, _, _, _, _, _, _, _, _, rfl⟩, id, id⟩

theorem BusMove.trans {s t u : State} (h : BusMove s t) (k : BusMove t u) : BusMove s u := by
  obtain ⟨⟨m, d, q, l, b, p, dv, hd, n, rfl⟩, hh, hp⟩ := h
  obtain ⟨⟨m', d', q', l', b', p', dv', hd', n', rfl⟩, kh, kp⟩ := k
  exact ⟨⟨m', d', q', l', b', p', dv', hd', n', rfl⟩, kh ∘ hh, kp ∘ hp⟩

theorem BusMove.after {s t u : State} (k : BusMove t u) (h : BusMove s t) : BusMove s u := h.trans k

/-- The head manager moves. -/
theorem BusMove.ofHeads {s t : State} (h : HeadsMove s t) (sound : HeadsSound s → HeadsSound t) : BusMove s t := by
  obtain ⟨m, d, q, l, rfl⟩ := h
  exact ⟨⟨_, _, _, _, _, _, _, _, _, rfl⟩, sound, fun hp => hp.congr rfl id⟩

/-- The pair unit moves. -/
theorem BusMove.ofPair {s t : State} (h : PairMove s t) (sound : PairSound s → PairSound t) : BusMove s t := by
  obtain ⟨p, l, rfl⟩ := h
  exact ⟨⟨_, _, _, _, _, _, _, _, _, rfl⟩, fun hh => hh.congr rfl rfl, sound⟩

/-- A slot moves: queue, bus, devices and clock, and no release-all mark is set. -/
theorem BusMove.slot {s : State} (q : List Entry) (b : Bus) (dv : List Device) (hd : Option Heard) (n : Nat)
    (hb : b.releaseAll = true → s.bus.releaseAll = true) :
    BusMove s { s with queue := q, bus := b, devices := dv, heard := hd, now := n } :=
  ⟨⟨_, _, _, _, _, _, _, _, _, rfl⟩, fun hh => hh.congr rfl rfl, fun hp => hp.congr rfl hb⟩

/-! ## The slots of a frame -/

theorem sendBeat_onBus (start : Nat) (s : State) : BusMove s (sendBeat start s) := .slot _ _ _ _ _ id

theorem sendReleaseAll_onBus (start : Nat) (s : State) : BusMove s (sendReleaseAll start s) := .slot _ _ _ _ _ nofun

theorem beat_onBus (s : State) :
    BusMove s (if mayStartFrame s && !s.bus.releaseAll then sendBeat (nextStart s) s else s) := by
  split; exacts [sendBeat_onBus _ s, .refl s]

theorem releaseAll_onBus (s : State) :
    BusMove s (if mayStartFrame s && s.bus.releaseAll then sendReleaseAll (nextStart s) s else s) := by
  split; exacts [sendReleaseAll_onBus _ s, .refl s]

theorem startSlot_onBus (k : SlotId) (s : State) : BusMove s (startSlot k s) := by
  unfold startSlot; split
  · exact .slot s.queue _ s.devices s.heard _ id
  · exact .refl s

theorem sendCommand_onBus (k : SlotId) (kind : SlotKind) (a : Byte) (h : Option HeadId) (c : BusCommand) (s : State) :
    BusMove s (sendCommand k kind a h c s) := .slot s.queue _ _ s.heard s.now id

theorem enrolSlot_onBus (s : State) : BusMove s (enrolSlot s) := by
  unfold enrolSlot; split
  · exact (startSlot_onBus 1 s).trans (sendCommand_onBus _ _ _ _ _ _)
  · exact .refl s

theorem partnerSlot_onBus (s : State) : BusMove s (partnerSlot s) := by
  unfold partnerSlot; split
  · exact (startSlot_onBus 2 s).trans (sendCommand_onBus _ _ _ _ _ _)
  · exact .refl s

theorem updateSlot_onBus (k : SlotId) (s : State) : BusMove s (updateSlot k s) := by
  unfold updateSlot; split
  · split
    · exact (startSlot_onBus k s).trans (sendCommand_onBus _ _ _ _ _ _)
    · exact startSlot_onBus k s
  · exact .refl s

theorem pollSlot_onBus (k : SlotId) (s : State) : BusMove s (pollSlot k s) := by
  unfold pollSlot; split
  · split
    · split
      · exact (startSlot_onBus k s).trans (sendCommand_onBus _ _ _ _ _ _)
      · exact startSlot_onBus k s
    · exact .refl s
  · exact .refl s

/-! ## Completion and observation -/

theorem eachHead_onBus (f : Device → Device) (s : State) : BusMove s (eachHead f s) :=
  .slot s.queue s.bus _ s.heard s.now id

theorem headsActed_onBus (a : Byte) (c : BusCommand) (w : WindowClass) (s : State) : BusMove s (headsActed a c w s) := by
  unfold headsActed; split
  · exact eachHead_onBus _ s
  · exact eachHead_onBus _ s
  · exact .refl s

theorem headAnnounced_onBus (serial : Serial) (s : State) : BusMove s (headAnnounced serial s) := by
  unfold headAnnounced; split
  · exact eachHead_onBus _ s
  · exact .slot s.queue s.bus _ s.heard s.now id

theorem enrolOutcome_onBus (w : WindowClass) (s : State) : BusMove s (enrolOutcome w s) := by
  have flagged : BusMove s { s with bus := { s.bus with contention := w == .garbled } } :=
    .slot s.queue _ s.devices s.heard s.now id
  unfold enrolOutcome; dsimp only; split
  · exact flagged.trans ((headAnnounced_onBus _ _).trans (.ofHeads (announce_moves _ _ _) fun hh => hh.announce _ _))
  · exact flagged

theorem ownOutcome_onBus (h : HeadId) (c : BusCommand) (w : WindowClass) (s : State) : BusMove s (ownOutcome h c w s) :=
  .ofHeads (ownOutcome_moves h c w s) fun hh => hh.ownOutcome h c w

theorem handOutcome_onBus (t : Transaction) (w : WindowClass) (s : State) : BusMove s (handOutcome t w s) := by
  unfold handOutcome; split
  · exact .refl s
  · exact .refl s
  · exact enrolOutcome_onBus w s
  · exact .ofPair (partnerOutcome_moves w s) fun hp => hp.partnerOutcome w
  · exact (headsActed_onBus _ _ w s).trans (ownOutcome_onBus _ _ w _)
  · exact .refl s

theorem completeTransaction_onBus (w : Window) (s : State) : BusMove s (completeTransaction w s) := by
  unfold completeTransaction; split
  · exact (handOutcome_onBus _ _ _).after (.slot s.queue { s.bus with inFlight := none } s.devices s.heard s.now id)
  · exact .refl s

theorem countSlot_onBus (s : State) : BusMove s (countSlot s) := .slot s.queue _ s.devices s.heard s.now id

theorem observePartner_onBus (s : State) : BusMove s (observePartner s) :=
  (BusMove.ofPair (partnerFrame_moves s) fun hp => hp.partnerFrame).trans (countSlot_onBus _)

theorem releaseHeads_onBus (s : State) : BusMove s (releaseHeads s) :=
  .ofHeads (releaseHeads_moves s) fun hh => hh.releaseHeads

theorem alignFrame_onBus (b : Byte) (s : State) : BusMove s (alignFrame b s) := .slot _ _ s.devices s.heard s.now id

theorem eachHears_onBus (f : Heard → Device → Device) (x : Heard) (s : State) : BusMove s (eachHears f x s) :=
  .slot s.queue s.bus _ _ s.now id

theorem takeBroadcast_onBus (c : BusCommand) (w : Window) (s : State) : BusMove s (takeBroadcast c w s) := by
  unfold takeBroadcast; split
  · exact (alignFrame_onBus _ s).trans (eachHears_onBus _ _ _)
  · exact (alignFrame_onBus _ s).trans ((releaseHeads_onBus _).trans (eachHears_onBus _ _ _))
  · exact enrolOutcome_onBus _ s
  · exact .refl s

theorem observeBroadcast_onBus (f : BusFrame) (w : Window) (s : State) : BusMove s (observeBroadcast f w s) := by
  unfold observeBroadcast; split
  · split
    · split
      · exact (observePartner_onBus s).trans (takeBroadcast_onBus _ w _)
      · exact observePartner_onBus s
    · exact observePartner_onBus s
  · exact .refl s

theorem takeObserved_onBus (a : Byte) (c : BusCommand) (w : Window) (s : State) : BusMove s (takeObserved a c w s) := by
  have heard := (eachHead_onBus (hearCommand a c) s).trans (headsActed_onBus a c (classify a c w) _)
  unfold takeObserved; dsimp only; split
  · split
    · exact heard.trans (.ofHeads (observedOutcome_moves _ _ _ _) fun hh => hh.observedOutcome _ _ _)
    · exact heard
  · exact heard

theorem observeTransaction_onBus (f : BusFrame) (w : Window) (s : State) : BusMove s (observeTransaction f w s) := by
  unfold observeTransaction; split
  · split
    · exact (observePartner_onBus s).trans (takeObserved_onBus _ _ w _)
    · exact observePartner_onBus s
  · exact .refl s

theorem takeQuery_onBus (d : Half) (m b : Byte) (s : State) : BusMove s (takeQuery d m b s) := by
  have beaten : BusMove s { s with bus := { s.bus with beat := b, nextBeat := b + 1 } } :=
    .slot s.queue _ s.devices s.heard s.now id
  have reported (u : State) (r : Option PartnerReport) (x : Option (List Byte)) :
      BusMove u { u with pair := { u.pair with report := r, holdReply := x } } :=
    .ofPair ⟨_, _, rfl⟩ fun hp => hp.counts r x hp.mismatch hp.lost
  exact beaten.trans ((reported _ _ _).trans (.ofPair (compareDigests_moves d _) fun hp => hp.compareDigests d))

theorem observeQuery_onBus (f : BusFrame) (s : State) : BusMove s (observeQuery f s) := by
  unfold observeQuery; split
  · dsimp only; split
    · split
      · exact (observePartner_onBus s).trans (takeQuery_onBus _ _ _ _)
      · exact observePartner_onBus s
    · exact observePartner_onBus s
  · exact .refl s

theorem queryMissed_onBus (s : State) : BusMove s (if observes s then missedExchange (countSlot s) else s) := by
  split
  · exact (countSlot_onBus s).trans (.ofPair ⟨_, _, rfl⟩ fun hp => hp.counts _ _ (Nat.zero_le _) hp.lost)
  · exact .refl s

/-! ## Requests of the bus, the heads and the pair -/

/-- A controller that may drive the bus sets the release-all mark (R101, R115). -/
theorem markRelease_onBus (b : Bus) {s : State} (drives : mayDrive s = true) : BusMove s { s with bus := b } :=
  ⟨⟨_, _, _, _, _, _, _, _, _, rfl⟩, fun hh => hh.congr rfl rfl, fun hp =>
    ⟨hp.solo, hp.hold, hp.silence, hp.guard, hp.isolating, hp.mismatch, hp.lost, fun _ => drives⟩⟩

theorem restartBus_onBus (s : State) : BusMove s (restartBus s).state := by
  unfold restartBus; split
  · next h =>
    refine (markRelease_onBus _ ?_).after (releaseHeads_onBus s)
    have same : (releaseHeads s).pair = s.pair := by
      obtain ⟨m, d, q, l, e⟩ := releaseHeads_moves s
      rw [e]
    unfold mayDrive; rw [same]
    rcases h.2 with e | e <;> rw [e] <;> rfl
  · exact .refl s

theorem testHead_onBus (index : Byte) (s : State) : BusMove s (testHead index s).state := by
  refine .ofHeads ?_ fun hh => hh.testHead index
  unfold testHead; split
  · exact .refl s
  · split
    · exact .refl s
    · split
      · exact .refl s
      · exact setHead_moves _ _ s

theorem restoreHead_onBus (index : Byte) (s : State) : BusMove s (restoreHead index s).state := by
  refine .ofHeads ?_ fun hh => hh.restoreHead index
  unfold restoreHead; split
  · exact .refl s
  · split
    · exact .refl s
    · exact (enterJoining_moves _ _ s).trans (setHead_moves _ _ _)

theorem yieldBus_onBus (s : State) : BusMove s (yieldBus s).state := by
  refine .ofPair ?_ fun hp => hp.yieldBus
  unfold yieldBus; split <;> exact ⟨_, _, rfl⟩

theorem enterIsolated_onBus {s : State} (hp : PairSound s → s.pair.state ≠ .solo) : BusMove s (enterIsolated s) :=
  ⟨⟨_, _, _, _, _, _, _, _, _, rfl⟩, fun hh => hh.congr rfl rfl, fun h => h.enterIsolated (hp h)⟩

theorem isolateUnit_onBus (s : State) : BusMove s (isolateUnit s).state := by
  refine ⟨?_, fun hh => ?_, fun hp => hp.isolateUnit⟩ <;> unfold isolateUnit
  · split <;> exact ⟨_, _, _, _, _, _, _, _, _, rfl⟩
  · split <;> exact hh.congr rfl rfl

theorem isolateSlotEnd_onBus (s : State) :
    BusMove s (if s.pair.isolating ∧ s.bus.inFlight.isNone then enterIsolated s else s) := by
  split
  · next h => exact enterIsolated_onBus fun hp => by rcases hp.isolating h.1 with e | e <;> rw [e] <;> nofun
  · exact .refl s

theorem yieldingEnd_onBus (s : State) :
    BusMove s (if s.pair.state = .yielding ∧ !s.pair.isolating ∧ s.bus.inFlight.isNone then endYield (reachTime (frameEnd s) s)
      else s) := by
  split
  · next h =>
    exact ⟨⟨_, _, _, _, _, _, _, _, _, rfl⟩, fun hh => hh.congr rfl rfl,
      fun hp => (hp.congr (t := reachTime (frameEnd s) s) rfl id).endYield h.1 (by simpa using h.2.1)⟩
  · exact .refl s

theorem silenceEnds_onBus (ph : Bool) (s : State) : BusMove s (silenceEnds ph s) := by
  obtain ⟨p, l, n, e⟩ := silenceEnds_frame ph s
  refine ⟨?_, fun hh => hh.congr (by rw [e]) (by rw [e]), fun hp => hp.silenceEnds ph⟩
  rw [e]; exact ⟨_, _, _, _, _, _, _, _, _, rfl⟩

theorem reachTime_onBus (n : Nat) (s : State) : BusMove s (reachTime n s) := .slot s.queue s.bus s.devices s.heard _ id

theorem enterDuty_onBus {s : State} (e : s.pair.state = .claiming) : BusMove s (enterDuty s) :=
  (sendBeat_onBus _ _).after (.ofPair ⟨_, _, rfl⟩ fun hp => (hp.duty e).offerPair _ _)

theorem giveUpClaim_onBus {s : State} (e : s.pair.state = .claiming) (c : PairCause) : BusMove s (giveUpClaim c s) :=
  .ofPair (giveUpClaim_moves c s) fun hp => hp.giveUpClaim e c

theorem guardEnds_onBus (ph : Bool) (s : State) : BusMove s (guardEnds ph s) := by
  unfold guardEnds; split
  · next g e _ =>
    have reached := reachTime_onBus g.expiry s
    have claims : (reachTime g.expiry s).pair.state = .claiming := e
    dsimp only; split
    · exact reached.trans (enterDuty_onBus claims)
    · split
      · exact reached.trans (giveUpClaim_onBus claims _)
      · split
        · exact reached.trans (giveUpClaim_onBus claims _)
        · exact reached.trans (.ofPair ⟨_, _, rfl⟩ fun hp => hp.secondGuard claims _)
  · exact .refl s

end Sys2Proof.Machine
end

section
/-! What every command can do, by the block that owns it: the monitors' commands, the commands of the bus, the mode
controller's commands with the blocked flags, and the map requests, which are taken in SETUP alone (R1, Table 9.2). -/

namespace Sys2Proof.Machine

/-! ## Requests that read alone, or act on the link alone -/

theorem getPoint_state (index : Byte) (s : State) : (getPoint index s).state = s := by unfold getPoint; split <;> rfl
theorem getZone_state (index : Byte) (s : State) : (getZone index s).state = s := by unfold getZone; split <;> rfl
theorem getExit_state (index : Byte) (s : State) : (getExit index s).state = s := by unfold getExit; split <;> rfl
theorem getHead_state (index : Byte) (s : State) : (getHead index s).state = s := by unfold getHead; split <;> rfl

theorem MonitorMove.ofEq {s t : State} (h : t = s) : MonitorMove s t := h ▸ .refl s

theorem setNoticeFilter_monitor (mask : Half) (s : State) : MonitorMove s (setNoticeFilter mask s).state := by
  unfold setNoticeFilter; split
  · exact .quiet s.zones s.alarmRequests s.engine s.selector.desired s.queue _ s.now
  · exact .refl s

theorem clearNoticeLoss_monitor (s : State) : MonitorMove s (clearNoticeLoss s).state :=
  .quiet s.zones s.alarmRequests s.engine s.selector.desired s.queue _ s.now

/-! ## Modes, settings and blocked flags -/

/-- Every setting lies in its range (Table 9.1). -/
structure TimingSound (t : Timing) : Prop where
  confirmTime : 2 ≤ t.confirmTime ∧ t.confirmTime ≤ 30
  clearHold : 10 ≤ t.clearHold ∧ t.clearHold ≤ 600
  silenceTime : 5 ≤ t.silenceTime ∧ t.silenceTime ≤ 120
  hysteresis : t.hystAbs ≤ 2000 ∧ t.hystPct ≤ 50
  phaseUnit : 10 ≤ t.phaseUnit ∧ t.phaseUnit ≤ 5000
  takeoverWait : 600 ≤ t.takeoverWait ∧ t.takeoverWait ≤ 5000

/-- The two states differ in what the monitors write, the mode, the settings, the blocked flags and the validation result
alone; biases, scanner and settings keep their ranges. -/
structure ModeMove (s t : State) : Prop where
  frame : ∃ z a sc x g d q l n m ti ai v r, t = { s with
    zones := z, alarmRequests := a, scanner := sc, exits := x, engine := g
    selector := { s.selector with desired := d }, queue := q, link := l, now := n, mode := m, timing := ti
    map := { s.map with aisles := ai, validated := v, lastValidation := r } }
  aisles : ∀ x, { look t.map.aisles x with blocked := (look s.map.aisles x).blocked } = look s.map.aisles x
  bias : ∀ e, (look s.map.exits e).baseBias ≤ Config.biasLimit → (exitOf s e).bias ≤ Config.biasLimit →
    (exitOf t e).bias ≤ Config.biasLimit
  runs : ∀ p, runSound (look s.scanner p) → runSound (look t.scanner p)
  timing : TimingSound s.timing → TimingSound t.timing

theorem MonitorMove.modes {s t : State} (h : MonitorMove s t) : ModeMove s t := by
  obtain ⟨⟨z, a, sc, x, g, d, q, l, n, rfl⟩, hb, hr⟩ := h
  exact ⟨⟨z, a, sc, x, g, d, q, l, n, _, _, _, _, _, rfl⟩, fun _ => rfl, hb, hr, id⟩

theorem ModeMove.refl (s : State) : ModeMove s s := (MonitorMove.refl s).modes

theorem ModeMove.trans {s t u : State} (h : ModeMove s t) (k : ModeMove t u) : ModeMove s u := by
  have aisles (x : AisleId) : { look u.map.aisles x with blocked := (look s.map.aisles x).blocked } = look s.map.aisles x :=
    calc { look u.map.aisles x with blocked := (look s.map.aisles x).blocked }
        = { ({ look u.map.aisles x with blocked := (look t.map.aisles x).blocked } : Aisle) with
            blocked := (look s.map.aisles x).blocked } := rfl
      _ = look s.map.aisles x := by rw [k.aisles x, h.aisles x]
  obtain ⟨⟨z, a, sc, x, g, d, q, l, n, m, ti, ai, v, r, rfl⟩, -, hb, hr, ht⟩ := h
  obtain ⟨⟨z', a', sc', x', g', d', q', l', n', m', ti', ai', v', r', rfl⟩, -, kb, kr, kt⟩ := k
  exact ⟨⟨z', a', sc', x', g', d', q', l', n', m', ti', ai', v', r', rfl⟩, aisles, fun e m b => kb e m (hb e m b),
    fun p r => kr p (hr p r), kt ∘ ht⟩

/-- The mode, the flag and the result of validation are written. -/
theorem ModeMove.write (m : Mode) (v : Bool) (r : Validation) (s : State) :
    ModeMove s { s with mode := m, map := { s.map with validated := v, lastValidation := r } } :=
  ⟨⟨_, _, _, _, _, _, _, _, _, _, _, _, _, _, rfl⟩, fun _ => rfl, fun _ _ h => h, fun _ h => h, id⟩

/-- Blocked flags are written. -/
theorem ModeMove.block {s : State} {ai : Vector Aisle 480}
    (h : ∀ x, { look ai x with blocked := (look s.map.aisles x).blocked } = look s.map.aisles x) :
    ModeMove s { s with map := { s.map with aisles := ai } } :=
  ⟨⟨_, _, _, _, _, _, _, _, _, _, _, _, _, _, rfl⟩, h, fun _ _ h => h, fun _ h => h, id⟩

theorem setBlocked_modes (x : AisleId) (b : Bool) (s : State) :
    ModeMove s (setAisleRec x { look s.map.aisles x with blocked := b } s) := by
  refine .block fun y => ?_
  rw [look_store]; split
  · next e => rw [← e]
  · rfl

/-- A blocked flag is written, and the engine takes the change (R5). -/
theorem writeBlocked_monitor (x : AisleId) (b : Bool) (s : State) :
    MonitorMove (setAisleRec x { look s.map.aisles x with blocked := b } s) (writeBlocked x b s) := by
  unfold writeBlocked; split
  · next e =>
    have same : setAisleRec x { look s.map.aisles x with blocked := b } s = s := by
      rw [← e]; unfold setAisleRec; rw [store_look]
    rw [same]; exact .refl s
  · exact handChange_monitor _ _

theorem openAisles_modes (s : State) : ModeMove s (openAisles s) :=
  .block fun x => by rw [look_tabulate]

/-- A change of mode whose action is the monitors' (R151). -/
theorem changeMode_modes {new : Mode} {cause : ModeCause} {outcome : ModeOutcome} {zone : Option ZoneId}
    {act : State → State} (h : ∀ u, MonitorMove u (act u)) (s : State) :
    ModeMove s (changeMode new cause outcome zone act s) :=
  (ModeMove.write new s.map.validated s.map.lastValidation s).trans (changeMode_monitor new cause outcome zone h s).modes

theorem setResult_modes (v : Validation) (s : State) : ModeMove s (setResult v s) := .write s.mode s.map.validated v s

theorem completeValidation_modes (s : State) : ModeMove s (completeValidation s) := by
  unfold completeValidation; split
  · split
    · refine ModeMove.trans ?_ (changeMode_modes (fun u => (startRun_monitor u).trans (enterGuard_monitor _)) _)
      exact (ModeMove.write s.mode true .passed s).trans (MonitorMove.forEach _ loadBias_monitor _).modes
    · exact (ModeMove.write s.mode false _ s).trans (changeMode_modes .refl _)
  · exact .refl s

theorem autoAlarm_modes (s : State) : ModeMove s (autoAlarm s) := by
  unfold autoAlarm; split
  · exact .refl s
  · next z rest _ =>
    have taken : ModeMove s { s with alarmRequests := rest } :=
      (MonitorMove.quiet s.zones rest s.engine s.selector.desired s.queue s.link s.now).modes
    dsimp only; split
    · exact taken.trans (changeMode_modes .refl _)
    · exact taken

theorem arm_modes (s : State) : ModeMove s (arm s).state := by
  unfold arm; split <;> dsimp only [taken, refuse]
  · exact (setResult_modes _ s).trans (changeMode_modes .refl _)
  · exact .refl s

theorem disarm_modes (s : State) : ModeMove s (disarm s).state := by
  unfold disarm; split <;> dsimp only [taken, refuse]
  · exact changeMode_modes disarmEngine_monitor s
  · exact (setResult_modes _ s).trans (changeMode_modes .refl _)
  · exact .refl s
  · exact .refl s

theorem alarm_modes (s : State) : ModeMove s (alarm s).state := by
  unfold alarm; split <;> dsimp only [taken, refuse]
  · exact changeMode_modes .refl s
  · exact .refl s

theorem standDown_modes (s : State) : ModeMove s (standDown s).state := by
  unfold standDown; split
  · exact .refl s
  · split <;> dsimp only [taken, refuse]
    · exact .refl s
    · exact changeMode_modes enterGuard_monitor s

/-- A value brought into a range lies in it. -/
theorem clampTo_mem {low high : Nat} (h : low ≤ high) (v : Nat) : low ≤ clampTo low high v ∧ clampTo low high v ≤ high := by
  unfold clampTo; omega

/-- A setting is stored within its range (R156). -/
theorem timingWith_sound {code value : Nat} {t u : Timing} (e : timingWith code value t = some u) (h : TimingSound t) :
    TimingSound u := by
  have mem (low high : Nat) (h : low ≤ high) := clampTo_mem h value
  obtain ⟨confirmTime, clearHold, silenceTime, hysteresis, phaseUnit, takeoverWait⟩ := h
  unfold timingWith at e
  split at e
  · cases e; exact ⟨mem _ _ (by decide), clearHold, silenceTime, hysteresis, phaseUnit, takeoverWait⟩
  · cases e; exact ⟨confirmTime, mem _ _ (by decide), silenceTime, hysteresis, phaseUnit, takeoverWait⟩
  · cases e; exact ⟨confirmTime, clearHold, mem _ _ (by decide), hysteresis, phaseUnit, takeoverWait⟩
  · split at e <;> cases e <;> exact ⟨confirmTime, clearHold, silenceTime, hysteresis, phaseUnit, takeoverWait⟩
  · cases e
    exact ⟨confirmTime, clearHold, silenceTime, ⟨(mem 0 2000 (by decide)).2, hysteresis.2⟩, phaseUnit, takeoverWait⟩
  · cases e
    exact ⟨confirmTime, clearHold, silenceTime, ⟨hysteresis.1, (mem 0 50 (by decide)).2⟩, phaseUnit, takeoverWait⟩
  · cases e; exact ⟨confirmTime, clearHold, silenceTime, hysteresis, mem _ _ (by decide), takeoverWait⟩
  · cases e; exact ⟨confirmTime, clearHold, silenceTime, hysteresis, phaseUnit, mem _ _ (by decide)⟩
  · cases e

theorem setTiming_modes (setting : Byte) (value : Half) (s : State) : ModeMove s (setTiming setting value s).state := by
  unfold setTiming; split
  · split
    · exact .refl s
    · next t e =>
      have written : ModeMove s { s with timing := t } :=
        ⟨⟨_, _, _, _, _, _, _, _, _, _, _, _, _, _, rfl⟩, fun _ => rfl, fun _ _ h => h, fun _ h => h, timingWith_sound e⟩
      show ModeMove s (storeTiming t s)
      unfold storeTiming; dsimp only; split
      · exact written
      · exact written.trans (recomputeAll_monitor _).modes
  · exact .refl s

/-! ## RESTART -/

/-- RESTART in its blocks, before the change of mode: monitor moves, and the blocked flags cleared (R158 step 3). -/
theorem restartBlocks_moves (s : State) : ∃ u, MonitorMove s u ∧ MonitorMove (openAisles u) (restartBlocks s) := by
  have reset : MonitorMove s { s with zones := Vector.replicate 64 ZoneRt.reset, scanner := Vector.replicate 32 Contact.reset } :=
    (setScanner_monitor (sc := Vector.replicate 32 Contact.reset) fun p _ => by
      rw [look_replicate]; exact ⟨Nat.zero_le _, nofun⟩).trans
      (.quiet (Vector.replicate 64 ZoneRt.reset) s.alarmRequests s.engine s.selector.desired s.queue s.link s.now)
  exact ⟨_, reset.trans (.forEach _ restartExit_monitor _), clearEngine_monitor _⟩

/-- The part with its queued notices cleared and a validation in progress cancelled (R158 steps 1 and 2). -/
def cancelled (s : State) : State := if s.mode = .validating then setResult .cancelled (restartLink s) else restartLink s

theorem restart_eq (s : State) (h : s.mode ≠ .alarm) :
    restart s = taken .done (changeMode (restartMode s) .restart (if s.mode = .validating then .cancelled else .none) none
      restartGuard (restartBlocks (cancelled s))) := by
  unfold restart cancelled; rw [if_neg h]

theorem cancelled_modes (s : State) : ModeMove s (cancelled s) := by
  have quieted : MonitorMove s (restartLink s) :=
    .quiet s.zones s.alarmRequests s.engine s.selector.desired s.queue _ s.now
  unfold cancelled; split
  · exact quieted.modes.trans (setResult_modes _ _)
  · exact quieted.modes

theorem restart_modes (s : State) : ModeMove s (restart s).state := by
  by_cases h : s.mode = .alarm
  · unfold restart; rw [if_pos h]; exact .refl s
  · rw [restart_eq s h]; dsimp only [taken]
    obtain ⟨u, before, after⟩ := restartBlocks_moves (cancelled s)
    exact (cancelled_modes s).trans (before.modes.trans ((openAisles_modes u).trans (after.modes.trans
      (changeMode_modes restartGuard_monitor _))))

theorem blockAisle_modes (index : Half) (s : State) : ModeMove s (blockAisle index s).state := by
  unfold blockAisle; split
  · exact .refl s
  · exact (setBlocked_modes _ true s).trans (writeBlocked_monitor _ true s).modes

theorem openAisle_modes (index : Half) (s : State) : ModeMove s (openAisle index s).state := by
  unfold openAisle; split
  · exact .refl s
  · exact (setBlocked_modes _ false s).trans (writeBlocked_monitor _ false s).modes

/-! ## The block that owns a command -/

/-- What a command acts on, for the requests and for the part's own events. -/
inductive Owner
  | reset | modes | map | bus | monitors
  deriving DecidableEq

/-- The block that owns a command. -/
def ownerOf : Instr → Owner
  | .hardReset .. => .reset
  | .restart _ | .arm _ | .disarm _ | .alarm _ | .standDown _ | .setTiming .. | .validationComplete | .autoAlarmRequest
  | .blockAisle .. | .openAisle .. => .modes
  | .clearMap _ | .setPoint .. | .setAisle .. | .setExit .. | .setZone .. | .placeHead .. | .unplaceHead .. | .setScript ..
  | .setKindMap .. => .map
  | .beat | .releaseAll | .enrol | .partnerSlot | .updateSlot _ | .pollSlot _ | .transactionComplete _ | .restartBus _
  | .testHead .. | .restoreHead .. | .yield _ | .isolate _ | .yieldingEnd | .isolateSlotEnd | .pairSilenceExpiry _
  | .claimGuardExpiry _ | .observedBroadcast .. | .observedTransaction .. | .partnerQueryObserved _
  | .partnerQueryMissed => .bus
  | _ => .monitors

/-- A request of the monitors, the queries and the notice filter. -/
theorem requestAct_monitors {i : Instr} (s : State) (h : ownerOf i = .monitors) : MonitorMove s (requestAct i s).state := by
  cases i
  case zoneReadings => exact zoneReadings_monitor _ s
  case confirmZone => exact confirmZone_monitor _ s
  case exitOverride => exact exitOverride_monitor _ _ s
  case exitBias => exact exitBias_monitor _ _ s
  case setNoticeFilter => exact setNoticeFilter_monitor _ s
  case clearNoticeLoss => exact clearNoticeLoss_monitor s
  case getPoint => exact .ofEq (getPoint_state _ s)
  case getZone => exact .ofEq (getZone_state _ s)
  case getExit => exact .ofEq (getExit_state _ s)
  case getHead => exact .ofEq (getHead_state _ s)
  case getStatus | getStrangers | confirmTimerExpiry | clearHoldExpiry | zoneSilenceExpiry | gateScan | sweepEnd
    | selectionEnd | publication | panelByteReceived | transmitFrameEnd | unknownType => exact .refl s
  all_goals exact absurd h nofun

/-- A request of the bus, the heads and the pair. -/
theorem requestAct_onBus {i : Instr} (s : State) (h : ownerOf i = .bus) : BusMove s (requestAct i s).state := by
  cases i
  case testHead => exact testHead_onBus _ s
  case restoreHead => exact restoreHead_onBus _ s
  case restartBus => exact restartBus_onBus s
  case yield => exact yieldBus_onBus s
  case isolate => exact isolateUnit_onBus s
  case beat | releaseAll | enrol | partnerSlot | updateSlot | pollSlot | transactionComplete | yieldingEnd | isolateSlotEnd
    | pairSilenceExpiry | claimGuardExpiry | observedBroadcast | observedTransaction | partnerQueryObserved
    | partnerQueryMissed => exact .refl s
  all_goals exact absurd h nofun

/-- A request of the mode controller, or of a blocked flag. -/
theorem requestAct_modes {i : Instr} (s : State) (h : ownerOf i = .modes) : ModeMove s (requestAct i s).state := by
  cases i
  case restart => exact restart_modes s
  case arm => exact arm_modes s
  case disarm => exact disarm_modes s
  case alarm => exact alarm_modes s
  case standDown => exact standDown_modes s
  case setTiming => exact setTiming_modes _ _ s
  case blockAisle => exact blockAisle_modes _ s
  case openAisle => exact openAisle_modes _ s
  case validationComplete | autoAlarmRequest => exact .refl s
  all_goals exact absurd h nofun

theorem inSetup_refused {act : State → Served} {s : State} (h : s.mode ≠ .setup) :
    inSetup act s = refuse .wrongMode s := if_neg h

/-- A map request outside SETUP changes nothing (R1, Table 9.2). -/
theorem requestAct_map_frozen {i : Instr} {s : State} (h : ownerOf i = .map) (hm : s.mode ≠ .setup) :
    (requestAct i s).state = s := by
  have frozen (act : State → Served) : (inSetup act s).state = s := by rw [inSetup_refused hm]; rfl
  cases i
  case clearMap | setPoint | setAisle | setExit | setZone | placeHead | unplaceHead | setKindMap => exact frozen _
  case setScript =>
    show (setScript _ _ _ s).state = s
    unfold setScript; split
    · exact frozen _
    · rfl
  all_goals exact absurd h nofun

theorem eventOf_monitors {c : Instr} (s : State) (h : ownerOf c = .monitors) : MonitorMove s (eventOf c s) := by
  cases c
  case confirmTimerExpiry => exact confirmExpiry_monitor _ s
  case clearHoldExpiry => exact clearHoldExpiry_monitor _ s
  case zoneSilenceExpiry => exact silenceExpiry_monitor _ s
  case gateScan => exact gateScan_monitor _ s
  case sweepEnd => exact endSweep_monitor s
  case selectionEnd => exact endSelection_monitor s
  case publication => exact publish_monitor s
  case zoneReadings | confirmZone | exitOverride | exitBias | setNoticeFilter | clearNoticeLoss | getPoint | getZone
    | getExit | getHead | getStatus | getStrangers | panelByteReceived | transmitFrameEnd | unknownType => exact .refl s
  all_goals exact absurd h nofun

theorem eventOf_onBus {c : Instr} (s : State) (h : ownerOf c = .bus) : BusMove s (eventOf c s) := by
  cases c
  case beat => exact beat_onBus s
  case releaseAll => exact releaseAll_onBus s
  case enrol => exact enrolSlot_onBus s
  case partnerSlot => exact partnerSlot_onBus s
  case updateSlot => exact updateSlot_onBus _ s
  case pollSlot => exact pollSlot_onBus _ s
  case transactionComplete => exact completeTransaction_onBus _ s
  case yieldingEnd => exact yieldingEnd_onBus s
  case isolateSlotEnd => exact isolateSlotEnd_onBus s
  case pairSilenceExpiry => exact silenceEnds_onBus _ s
  case claimGuardExpiry => exact guardEnds_onBus _ s
  case observedBroadcast => exact observeBroadcast_onBus _ _ s
  case observedTransaction => exact observeTransaction_onBus _ _ s
  case partnerQueryObserved => exact observeQuery_onBus _ s
  case partnerQueryMissed => exact queryMissed_onBus s
  case testHead | restoreHead | restartBus | yield | isolate => exact .refl s
  all_goals exact absurd h nofun

theorem eventOf_modes {c : Instr} (s : State) (h : ownerOf c = .modes) : ModeMove s (eventOf c s) := by
  cases c
  case validationComplete => exact completeValidation_modes s
  case autoAlarmRequest => exact autoAlarm_modes s
  case restart | arm | disarm | alarm | standDown | setTiming | blockAisle | openAisle => exact .refl s
  all_goals exact absurd h nofun

/-- A request that no event brings does nothing as an event. -/
theorem eventOf_map {c : Instr} (s : State) (h : ownerOf c = .map) : eventOf c s = s := by
  cases c
  case clearMap | setPoint | setAisle | setExit | setZone | placeHead | unplaceHead | setScript | setKindMap => rfl
  all_goals exact absurd h nofun

/-- HARD_RESET alone is the reset's, and it is no request. -/
theorem requestAct_reset {i : Instr} (s : State) (h : ownerOf i = .reset) : (requestAct i s).state = s := by
  cases i
  case hardReset => rfl
  all_goals exact absurd h nofun

theorem ownerOf_reset {c : Instr} (h : ownerOf c = .reset) : ∃ speed pairEn role, c = .hardReset speed pairEn role := by
  cases c
  case hardReset speed pairEn role => exact ⟨speed, pairEn, role, rfl⟩
  all_goals exact absurd h nofun

end Sys2Proof.Machine
end

section
/-! Outside SETUP no command but a hard reset changes the map, the scripts or the kind map (R1, R10, R12, R77, R83). -/

namespace Sys2Proof.Machine

/-- The map, the library and the kind map are as they were, blocked flags and validation results aside. -/
structure MapKept (s t : State) : Prop where
  points : t.map.points = s.map.points
  exits : t.map.exits = s.map.exits
  zones : t.map.zones = s.map.zones
  placements : t.map.placements = s.map.placements
  aisles : ∀ x, { look t.map.aisles x with blocked := (look s.map.aisles x).blocked } = look s.map.aisles x
  library : t.selector.library = s.selector.library
  generation : t.selector.generation = s.selector.generation
  kindMap : t.selector.kindMap = s.selector.kindMap

theorem ModeMove.kept {s t : State} (h : ModeMove s t) : MapKept s t := by
  obtain ⟨⟨z, a, sc, x, g, d, q, l, n, m, ti, ai, v, r, rfl⟩, aisles, -, -, -⟩ := h
  exact ⟨rfl, rfl, rfl, rfl, aisles, rfl, rfl, rfl⟩

theorem BusMove.kept {s t : State} (h : BusMove s t) : MapKept s t := by
  obtain ⟨⟨m, d, q, l, b, p, dv, hd, n, rfl⟩, -, -⟩ := h
  exact ⟨rfl, rfl, rfl, rfl, fun _ => rfl, rfl, rfl, rfl⟩

/-- A request outside SETUP keeps the map. -/
theorem requestAct_kept (i : Instr) {s : State} (hm : s.mode ≠ .setup) : MapKept s (requestAct i s).state := by
  cases h : ownerOf i with
  | reset => rw [requestAct_reset s h]; exact (ModeMove.refl s).kept
  | modes => exact (requestAct_modes s h).kept
  | map => rw [requestAct_map_frozen h hm]; exact (ModeMove.refl s).kept
  | bus => exact (requestAct_onBus s h).kept
  | monitors => exact (requestAct_monitors s h).modes.kept

/-- An event of the part's own keeps the map, a hard reset aside. -/
theorem eventOf_kept {c : Instr} (s : State) (hc : ∀ speed pairEn role, c ≠ .hardReset speed pairEn role) :
    MapKept s (eventOf c s) := by
  cases h : ownerOf c with
  | reset => obtain ⟨speed, pairEn, role, e⟩ := ownerOf_reset h; exact absurd e (hc _ _ _)
  | modes => exact (eventOf_modes s h).kept
  | map => rw [eventOf_map s h]; exact (ModeMove.refl s).kept
  | bus => exact (eventOf_onBus s h).kept
  | monitors => exact (eventOf_monitors s h).modes.kept

/-- Every command outside SETUP but a hard reset keeps the map. -/
theorem exec_kept {c : Instr} {s t : State} (e : exec c s = .next t) (h : s.mode ≠ .setup)
    (hc : ∀ speed pairEn role, c ≠ .hardReset speed pairEn role) : MapKept s t := by
  cases exec_does e with
  | link l => exact ⟨rfl, rfl, rfl, rfl, fun _ => rfl, rfl, rfl, rfl⟩
  | request i l l' =>
    obtain ⟨points, exits, zones, placements, aisles, library, generation, kindMap⟩ :=
      requestAct_kept i (s := { s with link := l }) h
    exact ⟨points, exits, zones, placements, aisles, library, generation, kindMap⟩
  | event => exact eventOf_kept s hc

end Sys2Proof.Machine

namespace Sys2Proof.Proofs

open Sys2Proof Sys2Proof.Machine

/-- Settles O20: what every command does outside SETUP, and the refusal of every map request there. -/
theorem mapFrozenOutsideSetup : Obligations.MapFrozenOutsideSetup := by
  unfold Obligations.MapFrozenOutsideSetup
  refine ⟨fun c s t e h hc => ?_, fun tag a b c d e f g v w serial body s hr h => ?_⟩
  · obtain ⟨points, exits, zones, placements, aisles, library, generation, kindMap⟩ := exec_kept e h hc
    exact ⟨points, exits, zones, placements, aisles, library, generation, kindMap⟩
  · have refused (act : State → Served) : inSetup act { s with link := { s.link with serving := true } }
        = refuse .wrongMode { s with link := { s.link with serving := true } } := inSetup_refused h
    refine ⟨refuses_of rfl (exec_clearMap ..) hr (refused _), refuses_of rfl (exec_setPoint ..) hr (refused _),
      refuses_of rfl (exec_setAisle ..) hr (refused _), refuses_of rfl (exec_setExit ..) hr (refused _),
      refuses_of rfl (exec_setZone ..) hr (refused _), refuses_of rfl (exec_placeHead ..) hr (refused _),
      refuses_of rfl (exec_unplaceHead ..) hr (refused _), refuses_of rfl (exec_setKindMap ..) hr (refused _),
      fun ok => refuses_of rfl (exec_setScript ..) hr ?_, fun bad => refuses_of rfl (exec_setScript ..) hr ?_⟩
    · unfold Machine.setScript; rw [if_pos ok]; exact refused _
    · unfold Machine.setScript; rw [if_neg (by simp [bad])]

end Sys2Proof.Proofs
end

section
/-! What a map request can do to the part, edit by edit (R1 to R12, R77, R83, R84). -/

namespace Sys2Proof.Machine

/-- The structural values of an aisle lie in their ranges (R4). -/
def aisleInRange (a : Aisle) : Prop :=
  (1 ≤ a.length ∧ a.length ≤ Config.lengthLimit) ∧ 1 ≤ a.width ∧ a.width ≤ 4

/-- The thresholds of a zone lie in their ranges (R7). -/
def zoneInRange (z : Zone) : Prop := 1 ≤ z.suspect ∧ z.suspect < z.smoke ∧ z.smoke ≤ 255

/-- What CLEAR MAP leaves (R12). -/
def clearedMap (s : State) : State :=
  replaceTable (clearedTable (emptyTables (forEach 64 unplace s)).map) (emptyTables (forEach 64 unplace s))

/-- The edits that the map requests make. -/
inductive MapEdit (s : State) : State → Prop
  | none : MapEdit s s
  | point (p : PointId) (r : Point) : MapEdit s (writePoint p r s)
  | aisle (x : AisleId) (r : Aisle) (ok : aisleInRange (look s.map.aisles x) → aisleInRange r) :
    MapEdit s (acceptMap (setAisleRec x r s))
  | defineExit (e : ExitId) (r : Exit) (ok : r.baseBias ≤ Config.biasLimit) :
    MapEdit s (acceptMap (defineExitRt (look s.map.exits e).defined e (setExitRec e r s)))
  | removeExit (e : ExitId) : MapEdit s (removeExit e s)
  | defineZone (z : ZoneId) (r : Zone) (ok : zoneInRange r) :
    MapEdit s (acceptMap (setZoneRec z r (if (look s.map.zones z).defined then s else setZoneRt z ZoneRt.reset s)))
  | removeZone (z : ZoneId) : MapEdit s (removeZone z s)
  | place (h : HeadId) (r : Placement) (ok : r.defined = true) : MapEdit s (writePlacement h r s)
  | unplace (h : HeadId) : MapEdit s (acceptMap (unplace h s))
  | clear : MapEdit s (clearedMap s)
  | script (i : Fin 12) (steps : Option (List ScriptStep)) (ok : ∀ l, steps = some l → scriptOk l = true) :
    MapEdit s (editLibrary i steps s)
  | kindMap (i : Fin 10) (n : ScriptId) : MapEdit s (recomputeAll (acceptMap (writeKindMap i n s)))

theorem MapEdit.ofTaken {code : ReplyCode} {s t : State} (h : MapEdit s t) : MapEdit s (taken code t).state := h

theorem setPoint_edit (action index kind zone : Byte) {s : State} (hm : s.mode = .setup) :
    MapEdit s (setPoint action index kind zone s).state := by
  unfold setPoint inSetup; rw [if_pos hm]; split
  · exact .none
  · split
    · exact .ofTaken (.point _ _)
    · unfold definePoint; split
      · exact .none
      · split
        · exact .ofTaken (.point _ _)
        · exact .none

theorem setAisle_edit (action : Byte) (index : Half) (endA endB : Byte) (length : Half) (width bearing passage zone : Byte)
    {s : State} (hm : s.mode = .setup) :
    MapEdit s (setAisle action index endA endB length width bearing passage zone s).state := by
  unfold setAisle inSetup; rw [if_pos hm]; split
  · exact .none
  · split
    · exact .ofTaken (.aisle _ _ id)
    · unfold defineAisle; split
      · exact .none
      · split
        · split
          · next ok =>
            refine .ofTaken (.aisle _ _ fun _ => ?_)
            simp only [aisleValuesOk, Bool.and_eq_true, decide_eq_true_eq] at ok
            exact ⟨⟨ok.1.1.1, ok.1.1.2⟩, ok.1.2, ok.2⟩
          · exact .none
        · exact .none

theorem setExit_edit (action index point : Byte) (bias : Half) (row column : Byte) {s : State} (hm : s.mode = .setup) :
    MapEdit s (setExit action index point bias row column s).state := by
  unfold setExit inSetup; rw [if_pos hm]; split
  · exact .none
  · split
    · exact .ofTaken (.removeExit _)
    · unfold defineExit; split
      · exact .none
      · split
        · exact .ofTaken (.defineExit _ _ (Nat.min_le_left _ _))
        · exact .none

theorem stored_inRange (suspect smoke : Byte) (v : Bool) :
    zoneInRange { defined := true, suspect := storedSuspect suspect, smoke := storedSmoke suspect smoke, supervised := v } := by
  have low := clampTo_mem (low := 1) (high := 254) (by decide) (thresholdField suspect Config.defaultSuspect)
  have high := clampTo_mem (low := storedSuspect suspect + 1) (high := 255) (by unfold storedSuspect; omega)
    (thresholdField smoke Config.defaultSmoke)
  exact ⟨low.1, high.1, high.2⟩

theorem setZone_edit (action index suspect smoke sup : Byte) {s : State} (hm : s.mode = .setup) :
    MapEdit s (setZone action index suspect smoke sup s).state := by
  unfold setZone inSetup; rw [if_pos hm]; split
  · exact .none
  · split
    · exact .ofTaken (.removeZone _)
    · unfold defineZone; split
      · exact .ofTaken (.defineZone _ _ (stored_inRange _ _ _))
      · exact .none

theorem placeHead_edit (index : Byte) (serial : Serial) (point facing enabled : Byte) {s : State} (hm : s.mode = .setup) :
    MapEdit s (placeHead index serial point facing enabled s).state := by
  unfold placeHead inSetup; rw [if_pos hm]; split
  · dsimp only; split
    · split
      · exact .none
      · split
        · exact .none
        · exact .ofTaken (.place _ _ rfl)
    · exact .none
  · exact .none

theorem unplaceHead_edit (index : Byte) {s : State} (hm : s.mode = .setup) : MapEdit s (unplaceHead index s).state := by
  unfold unplaceHead inSetup; rw [if_pos hm]; split
  · exact .none
  · exact .ofTaken (.unplace _)

theorem carriedSteps_ok {body : List Byte} {steps : List ScriptStep} (h : carriedSteps body = some steps) :
    scriptOk steps = true := by
  unfold carriedSteps at h
  split at h
  · split at h
    · next ok => cases h; exact ok
    · cases h
  · cases h

theorem setScript_edit (action script : Byte) (body : List Byte) {s : State} (hm : s.mode = .setup) :
    MapEdit s (setScript action script body s).state := by
  unfold setScript; split
  · unfold inSetup; rw [if_pos hm]
    unfold scriptRequest; split
    · exact .none
    · split
      · exact .none
      · split
        · exact .ofTaken (.script _ _ nofun)
        · split
          · next e => exact .ofTaken (.script _ _ fun l h => by cases h; exact carriedSteps_ok e)
          · exact .none
        · exact .none
  · exact .none

theorem setKindMap_edit (entry script : Byte) {s : State} (hm : s.mode = .setup) :
    MapEdit s (setKindMap entry script s).state := by
  unfold setKindMap inSetup; rw [if_pos hm]; split
  · exact .ofTaken (.kindMap _ _)
  · exact .none

theorem clearMap_edit {s : State} (hm : s.mode = .setup) : MapEdit s (clearMap s).state := by
  unfold clearMap inSetup; rw [if_pos hm]; exact .ofTaken .clear

/-- A map request edits the map in SETUP, and changes nothing elsewhere. -/
theorem requestAct_map {i : Instr} (s : State) (h : ownerOf i = .map) :
    (requestAct i s).state = s ∨ s.mode = .setup ∧ MapEdit s (requestAct i s).state := by
  by_cases hm : s.mode = .setup
  · refine .inr ⟨hm, ?_⟩
    cases i
    case clearMap => exact clearMap_edit hm
    case setPoint => exact setPoint_edit _ _ _ _ hm
    case setAisle => exact setAisle_edit _ _ _ _ _ _ _ _ _ hm
    case setExit => exact setExit_edit _ _ _ _ _ _ hm
    case setZone => exact setZone_edit _ _ _ _ _ hm
    case placeHead => exact placeHead_edit _ _ _ _ _ hm
    case unplaceHead => exact unplaceHead_edit _ hm
    case setScript => exact setScript_edit _ _ _ hm
    case setKindMap => exact setKindMap_edit _ _ hm
    all_goals exact absurd h nofun
  · exact .inl (requestAct_map_frozen h hm)

/-- An accepted map request does what the monitors do, over a map that is not validated (R11, R40). -/
theorem acceptMap_monitor (s : State) : MonitorMove { s with map := { s.map with validated := false } } (acceptMap s) :=
  reevalExits_monitor true _

theorem defineExitRt_monitor (d : Bool) (e : ExitId) (s : State) : MonitorMove s (defineExitRt d e s) := by
  unfold defineExitRt; split
  · exact setExitRt_moves (.inl rfl)
  · exact setExitRt_moves (.inr (.inr rfl))

theorem removeExitRt_monitor (e : ExitId) (s : State) : MonitorMove s (removeExitRt e s) := by
  have reset : MonitorMove s (setExitRt e ExitRt.reset s) := setExitRt_moves (.inr (.inl (Nat.zero_le _)))
  unfold removeExitRt; dsimp only; split
  · exact reset.trans (offer_monitor _ _)
  · exact reset

theorem removeIfDefined_monitor (e : ExitId) (s : State) : MonitorMove s (removeIfDefined e s) := by
  unfold removeIfDefined; split
  · exact removeExitRt_monitor e s
  · exact .refl s

/-- Whether a placement is unplaced shows at its own index alone. -/
theorem placementOf_unplace_ne {h k : HeadId} (s : State) (n : h ≠ k) : placementOf (unplace h s) k = placementOf s k := by
  unfold unplace; split
  · unfold placementOf; rw [(enterAbsent_moves false h _).map]; exact look_store_ne _ _ n
  · rfl

theorem placementOf_unplace_same (h : HeadId) (s : State) : (placementOf (unplace h s) h).defined = false := by
  unfold unplace; split
  · unfold placementOf; rw [(enterAbsent_moves false h _).map, setPlacement_map, look_store_same]
  · next e => simpa using e

/-- CLEAR MAP leaves no placement to empty the tables under. -/
theorem unplaceAll_undefined (s : State) (h : HeadId) : (placementOf (forEach 64 unplace s) h).defined = false := by
  obtain ⟨t, -, e⟩ := forEach_read unplace placementOf (fun _ _ s n => placementOf_unplace_ne s n) s h
  rw [e]; exact placementOf_unplace_same h t

/-- A head whose placement is undone is ABSENT (R10). -/
theorem HeadsSound.unplace {s : State} (hs : HeadsSound s) (h : HeadId) : HeadsSound (unplace h s) := by
  unfold Machine.unplace; split
  · have k := enterAbsent_rewrites false h (setPlacement h { placementOf s h with defined := false } s)
    refine .of (fun i => ?_) (by rw [k.heads]; exact hs.list)
    rw [k.headOf]
    by_cases e : h = i
    · rw [if_pos e]; exact ⟨fun _ => rfl, nofun, noWaits, Nat.zero_le _⟩
    · have place := placementOf_unplace_ne s e
      unfold Machine.unplace at place; rw [if_pos ‹_›] at place
      rw [if_neg e, place]
      exact hs.record i
  · exact hs

/-- With every placement undone every head is ABSENT, so the empty table holds. -/
theorem HeadsSound.clearedMap {s : State} (hs : HeadsSound s) : HeadsSound (clearedMap s) := by
  have undone : HeadsSound (Machine.forEach 64 Machine.unplace s) := hs.forEach fun h _ ht => ht.unplace h
  have none := unplaceAll_undefined s
  unfold Machine.clearedMap emptyTables
  generalize Machine.forEach 64 Machine.unplace s = u at undone none ⊢
  obtain ⟨⟨z, a, sc, x, g, d, q, l, n, e⟩, -, -⟩ := MonitorMove.forEach (n := 24) removeIfDefined removeIfDefined_monitor u
  simp only [e]
  exact .of (fun h => ⟨fun _ => undone.placed h (none h), undone.test h, undone.waits h, undone.faults h⟩) undone.list

end Sys2Proof.Machine
end

section
/-! Every step keeps the head records in their limits and the pair unit to Table 8.2. -/

namespace Sys2Proof.Machine

/-- The head records stay in their limits and the pair unit keeps to Table 8.2. -/
structure UnitsKept (s t : State) : Prop where
  heads : HeadsSound s → HeadsSound t
  pair : PairSound s → PairSound t

theorem UnitsKept.trans {s t u : State} (h : UnitsKept s t) (k : UnitsKept t u) : UnitsKept s u :=
  ⟨k.heads ∘ h.heads, k.pair ∘ h.pair⟩

/-- Placements, head manager, pair unit and bus are untouched. -/
theorem UnitsKept.untouched {s t : State} (placements : t.map.placements = s.map.placements) (heads : t.heads = s.heads)
    (pair : t.pair = s.pair) (bus : t.bus = s.bus) : UnitsKept s t :=
  ⟨fun h => h.congr placements heads, fun h => h.congr pair (by rw [bus]; exact id)⟩

/-- Pair unit and bus are untouched. -/
theorem UnitsKept.ofHeads {s t : State} (heads : HeadsSound s → HeadsSound t) (pair : t.pair = s.pair) (bus : t.bus = s.bus) :
    UnitsKept s t :=
  ⟨heads, fun h => h.congr pair (by rw [bus]; exact id)⟩

theorem ModeMove.units {s t : State} (h : ModeMove s t) : UnitsKept s t := by
  obtain ⟨⟨z, a, sc, x, g, d, q, l, n, m, ti, ai, v, r, rfl⟩, -, -, -, -⟩ := h
  exact .untouched rfl rfl rfl rfl

theorem MonitorMove.units {s t : State} (h : MonitorMove s t) : UnitsKept s t := h.modes.units

theorem BusMove.units {s t : State} (h : BusMove s t) : UnitsKept s t := ⟨h.heads, h.pair⟩

theorem HeadsMove.units {s t : State} (h : HeadsMove s t) (sound : HeadsSound s → HeadsSound t) : UnitsKept s t :=
  (BusMove.ofHeads h sound).units

/-- An accepted map request over records that are sound (R11, R40). -/
theorem UnitsKept.accept {s u : State} (h : UnitsKept s u) : UnitsKept s (acceptMap u) :=
  h.trans (.trans (t := { u with map := { u.map with validated := false } }) (.untouched rfl rfl rfl rfl)
    (acceptMap_monitor u).units)

theorem writePlacement_units (h : HeadId) {r : Placement} (ok : r.defined = true) (s : State) :
    UnitsKept s (writePlacement h r s) := by
  refine UnitsKept.accept (.ofHeads (fun hs => .of (fun k => ?_) (hs.list.filter _)) rfl rfl)
  show RecordSound (look (store s.map.placements h r) k).defined (headOf s k)
  rw [look_store]; split
  · next e => exact e ▸ ⟨fun f => by rw [ok] at f; exact absurd f nofun, hs.test h, hs.waits h, hs.faults h⟩
  · exact hs.record k

theorem unplace_units (h : HeadId) (s : State) : UnitsKept s (unplace h s) := by
  refine .ofHeads (fun hs => hs.unplace h) ?_ ?_ <;> unfold unplace <;> split
  · obtain ⟨m, d, q, l, e⟩ := enterAbsent_moves false h (setPlacement h { placementOf s h with defined := false } s)
    rw [e]; rfl
  · rfl
  · obtain ⟨m, d, q, l, e⟩ := enterAbsent_moves false h (setPlacement h { placementOf s h with defined := false } s)
    rw [e]; rfl
  · rfl

theorem clearedMap_units (s : State) : UnitsKept s (clearedMap s) := by
  have undone : UnitsKept s (forEach 64 unplace s) :=
    forEach_induct (P := UnitsKept s) unplace s (.untouched rfl rfl rfl rfl) fun h t ht => ht.trans (unplace_units h t)
  have emptied (u : State) : PairSound u → PairSound (replaceTable (clearedTable (emptyTables u).map) (emptyTables u)) := by
    have removed := (MonitorMove.forEach (n := 24) removeIfDefined removeIfDefined_monitor u).units
    unfold emptyTables
    generalize forEach 24 removeIfDefined u = v at removed ⊢
    exact fun hp => (removed.pair hp).congr rfl id
  exact ⟨HeadsSound.clearedMap, fun hp => emptied _ (undone.pair hp)⟩

theorem recomputeAll_units (s : State) : UnitsKept s (recomputeAll s) := (recomputeAll_monitor s).units

/-- Every edit of the map keeps the records and the pair unit. -/
theorem MapEdit.units {s t : State} (h : MapEdit s t) : UnitsKept s t := by
  cases h with
  | none => exact .untouched rfl rfl rfl rfl
  | point p r => exact UnitsKept.accept (.untouched rfl rfl rfl rfl)
  | aisle x r _ => exact UnitsKept.accept (.untouched rfl rfl rfl rfl)
  | defineExit e r _ =>
    exact UnitsKept.accept (.trans (t := setExitRec e r s) (.untouched rfl rfl rfl rfl) (defineExitRt_monitor _ e _).units)
  | removeExit e =>
    exact UnitsKept.accept (.trans (t := setExitRec e _ s) (.untouched rfl rfl rfl rfl) (removeExitRt_monitor e _).units)
  | defineZone z r _ => refine UnitsKept.accept ?_; split <;> exact .untouched rfl rfl rfl rfl
  | removeZone z => exact UnitsKept.accept (.untouched rfl rfl rfl rfl)
  | place h r ok => exact writePlacement_units h ok s
  | unplace h => exact (unplace_units h s).accept
  | clear => exact clearedMap_units s
  | script i steps _ =>
    have written : UnitsKept s (acceptMap (writeScript i steps s)) := UnitsKept.accept (.untouched rfl rfl rfl rfl)
    have reloaded (u : State) : UnitsKept u (forEach 64 reloadHead u) :=
      (HeadsMove.forEach reloadHead reloadHead_moves u).units fun hs => hs.forEach fun h _ ht => ht.reloadHead h
    exact written.trans ((reloaded _).trans (recomputeAll_units _))
  | kindMap i n =>
    have written : UnitsKept s (acceptMap (writeKindMap i n s)) := UnitsKept.accept (.untouched rfl rfl rfl rfl)
    exact written.trans (recomputeAll_units _)

theorem requestAct_units (i : Instr) (s : State) : UnitsKept s (requestAct i s).state := by
  cases h : ownerOf i with
  | reset => rw [requestAct_reset s h]; exact .untouched rfl rfl rfl rfl
  | modes => exact (requestAct_modes s h).units
  | map =>
    rcases requestAct_map s h with e | ⟨-, edit⟩
    · rw [e]; exact .untouched rfl rfl rfl rfl
    · exact edit.units
  | bus => exact (requestAct_onBus s h).units
  | monitors => exact (requestAct_monitors s h).units

/-! ## Hard reset -/

theorem hardReset_heads (speed : BitVec 2) (pairEn : Bool) (role : Role) (s : State) :
    HeadsSound (hardReset speed pairEn role s) := by
  refine .of (fun h => ?_) ⟨Nat.zero_le _, List.nodup_nil⟩
  have record : headOf (hardReset speed pairEn role s) h = Head.reset := look_replicate ..
  rw [record]; exact ⟨fun _ => rfl, nofun, noWaits, Nat.zero_le _⟩

theorem hardReset_pair (speed : BitVec 2) (pairEn : Bool) (role : Role) (s : State) :
    PairSound (hardReset speed pairEn role s) := by
  cases pairEn with
  | false => exact ⟨by simp [hardReset, PairUnit.reset], by simp [hardReset, PairUnit.reset],
      by simp [hardReset, PairUnit.reset], by simp [hardReset, PairUnit.reset], nofun, Nat.zero_le _, Nat.zero_le _,
      fun _ => rfl⟩
  | true =>
    exact .observing (t := hardReset speed true role s) (st := .reserve) rfl (.inl rfl) rfl rfl
      (by simp [hardReset, PairUnit.reset]) rfl rfl (Nat.zero_le _) (Nat.zero_le _) rfl

theorem eventOf_units (c : Instr) (s : State) : UnitsKept s (eventOf c s) := by
  cases h : ownerOf c with
  | reset =>
    obtain ⟨speed, pairEn, role, rfl⟩ := ownerOf_reset h
    exact ⟨fun _ => hardReset_heads .., fun _ => hardReset_pair ..⟩
  | modes => exact (eventOf_modes s h).units
  | map => rw [eventOf_map s h]; exact .untouched rfl rfl rfl rfl
  | bus => exact (eventOf_onBus s h).units
  | monitors => exact (eventOf_monitors s h).units

end Sys2Proof.Machine

namespace Sys2Proof.Proofs

open Sys2Proof Sys2Proof.Machine

/-- Settles O59: each request and each event of the part's own keeps both invariants. -/
theorem stepKeepsHeadsAndPair : Obligations.StepKeepsHeadsAndPair := by
  unfold Obligations.StepKeepsHeadsAndPair
  constructor
  · intro s t hs h
    exact step_keeps h hs (fun _ _ k => k.congr rfl rfl) (fun _ _ k => k.congr rfl rfl) (fun _ _ k => k.congr rfl rfl)
      (fun i s => (requestAct_units i s).heads) fun c s => (eventOf_units c s).heads
  · intro s t hs h
    exact step_keeps h hs (fun _ _ k => k.congr rfl id) (fun _ _ k => k.congr rfl id) (fun _ _ k => k.congr rfl id)
      (fun i s => (requestAct_units i s).pair) fun c s => (eventOf_units c s).pair

end Sys2Proof.Proofs
end

section
/-! Every step keeps every table value and setting in its range, and routes to a validated map. -/

namespace Sys2Proof.Machine

/-! ## Ranges -/

theorem RangesSound.of {s : State} (aisles : ∀ x, aisleInRange (look s.map.aisles x))
    (bias : ∀ e, (look s.map.exits e).baseBias ≤ Config.biasLimit ∧ (exitOf s e).bias ≤ Config.biasLimit)
    (zones : ∀ z, zoneInRange (look s.map.zones z))
    (library : ∀ i steps, look s.selector.library i = some steps → scriptOk steps) (timing : TimingSound s.timing)
    (runs : ∀ p, runSound (look s.scanner p)) : RangesSound s :=
  ⟨fun x => (aisles x).1, fun x => (aisles x).2, bias, zones, library, timing.confirmTime, timing.clearHold,
    timing.silenceTime, timing.hysteresis, timing.phaseUnit, timing.takeoverWait, fun p => (runs p).1, fun p => (runs p).2⟩

theorem RangesSound.aisle {s : State} (h : RangesSound s) (x : AisleId) : aisleInRange (look s.map.aisles x) :=
  ⟨h.length x, h.width x⟩

theorem RangesSound.settings {s : State} (h : RangesSound s) : TimingSound s.timing :=
  ⟨h.confirmTime, h.clearHold, h.silenceTime, h.hysteresis, h.phaseUnit, h.takeoverWait⟩

theorem RangesSound.scan {s : State} (h : RangesSound s) (p : PositionId) : runSound (look s.scanner p) :=
  ⟨h.runs p, h.deferred p⟩

/-- Only the tables with ranges matter. -/
theorem RangesSound.congr {s t : State} (h : RangesSound s) (aisles : t.map.aisles = s.map.aisles)
    (exits : t.map.exits = s.map.exits) (zones : t.map.zones = s.map.zones) (rt : t.exits = s.exits)
    (library : t.selector.library = s.selector.library) (timing : t.timing = s.timing) (scanner : t.scanner = s.scanner) :
    RangesSound t := by
  refine .of ?_ ?_ ?_ ?_ ?_ ?_
  · rw [aisles]; exact h.aisle
  · unfold exitOf; rw [exits, rt]; exact h.bias
  · rw [zones]; exact h.thresholds
  · rw [library]; exact h.library
  · rw [timing]; exact h.settings
  · rw [scanner]; exact h.scan

theorem ModeMove.ranges {s t : State} (k : ModeMove s t) (h : RangesSound s) : RangesSound t := by
  obtain ⟨⟨z, a, sc, x, g, d, q, l, n, m, ti, ai, v, r, rfl⟩, aisles, bias, runs, timing⟩ := k
  refine .of (fun y => ?_) (fun e => ⟨(h.bias e).1, bias e (h.bias e).1 (h.bias e).2⟩) h.thresholds h.library
    (timing h.settings) fun p => runs p (h.scan p)
  have same := h.aisle y
  rw [← aisles y] at same
  exact same

theorem MonitorMove.ranges {s t : State} (k : MonitorMove s t) (h : RangesSound s) : RangesSound t := k.modes.ranges h

theorem BusMove.ranges {s t : State} (k : BusMove s t) (h : RangesSound s) : RangesSound t := by
  obtain ⟨⟨m, d, q, l, b, p, dv, hd, n, rfl⟩, -, -⟩ := k
  exact h.congr rfl rfl rfl rfl rfl rfl rfl

theorem HeadsMove.ranges {s t : State} (k : HeadsMove s t) (h : RangesSound s) : RangesSound t := by
  obtain ⟨m, d, q, l, rfl⟩ := k
  exact h.congr rfl rfl rfl rfl rfl rfl rfl

theorem RangesSound.accept {s : State} (h : RangesSound s) : RangesSound (acceptMap s) :=
  (acceptMap_monitor s).ranges (h.congr rfl rfl rfl rfl rfl rfl rfl)

theorem RangesSound.setAisle {s : State} (h : RangesSound s) (x : AisleId) {r : Aisle} (ok : aisleInRange r) :
    RangesSound (setAisleRec x r s) := by
  refine .of (fun y => ?_) h.bias h.thresholds h.library h.settings h.scan
  rw [setAisleRec_map, look_store]; split
  · exact ok
  · exact h.aisle y

theorem RangesSound.setExit {s : State} (h : RangesSound s) (e : ExitId) {r : Exit} (ok : r.baseBias ≤ Config.biasLimit) :
    RangesSound (setExitRec e r s) := by
  refine .of h.aisle (fun k => ⟨?_, (h.bias k).2⟩) h.thresholds h.library h.settings h.scan
  rw [setExitRec_map, look_store]; split
  · exact ok
  · exact (h.bias k).1

theorem RangesSound.setZone {s : State} (h : RangesSound s) (z : ZoneId) {r : Zone} (ok : zoneInRange r) :
    RangesSound (setZoneRec z r s) := by
  refine .of h.aisle h.bias (fun y => ?_) h.library h.settings h.scan
  rw [setZoneRec_map, look_store]; split
  · exact ok
  · exact h.thresholds y

theorem RangesSound.setScript {s : State} (h : RangesSound s) (i : Fin 12) {steps : Option (List ScriptStep)}
    (ok : ∀ l, steps = some l → scriptOk l = true) : RangesSound (writeScript i steps s) := by
  refine .of h.aisle h.bias h.thresholds (fun j l => ?_) h.settings h.scan
  rw [writeScript_selector, look_store]; split
  · exact ok l
  · exact h.library j l

theorem unplace_ranges (h : HeadId) {s : State} (hs : RangesSound s) : RangesSound (unplace h s) := by
  unfold unplace; split
  · exact (enterAbsent_moves false h _).ranges (hs.congr rfl rfl rfl rfl rfl rfl rfl)
  · exact hs

/-- The tables of a hard reset are in their ranges (Table 1.4). -/
theorem resetTables_ranges {s : State} (library : ∀ i steps, look s.selector.library i = some steps → scriptOk steps)
    (timing : TimingSound s.timing) (runs : ∀ p, runSound (look s.scanner p)) (map : s.map = MapStore.reset)
    (exits : s.exits = Vector.replicate 24 ExitRt.reset) : RangesSound s := by
  refine .of (fun x => ?_) (fun e => ?_) (fun z => ?_) library timing runs
  · rw [map, show look MapStore.reset.aisles x = Aisle.reset from look_replicate ..]
    exact ⟨⟨Nat.le_refl _, by decide⟩, Nat.le_refl _, by decide⟩
  · unfold exitOf
    rw [map, exits, look_replicate, show look MapStore.reset.exits e = Exit.reset from look_replicate ..]
    exact ⟨Nat.zero_le _, Nat.zero_le _⟩
  · rw [map, show look MapStore.reset.zones z = Zone.reset from look_replicate ..]
    exact ⟨by decide, by decide, by decide⟩

theorem clearedMap_ranges {s : State} (hs : RangesSound s) : RangesSound (clearedMap s) := by
  have undone : RangesSound (forEach 64 unplace s) := forEach_induct unplace s hs fun h _ ht => unplace_ranges h ht
  have removed := (MonitorMove.forEach (n := 24) removeIfDefined removeIfDefined_monitor _).ranges undone
  unfold clearedMap emptyTables
  generalize forEach 24 removeIfDefined (forEach 64 unplace s) = u at removed ⊢
  exact resetTables_ranges removed.library removed.settings removed.scan rfl rfl

/-- What follows an edit of the library: the reloads of the heads, and a recomputation (R84). -/
theorem editLibrary_moves (i : Fin 12) (steps : Option (List ScriptStep)) (s : State) :
    ∃ u, HeadsMove (acceptMap (writeScript i steps s)) u ∧ MonitorMove u (editLibrary i steps s) :=
  ⟨_, .forEach reloadHead reloadHead_moves _, recomputeAll_monitor _⟩

theorem editLibrary_ranges (i : Fin 12) {steps : Option (List ScriptStep)} {s : State}
    (h : RangesSound (writeScript i steps s)) : RangesSound (editLibrary i steps s) := by
  obtain ⟨u, reloads, recomputes⟩ := editLibrary_moves i steps s
  exact recomputes.ranges (reloads.ranges h.accept)

/-- Every edit of the map keeps the ranges. -/
theorem MapEdit.ranges {s t : State} (k : MapEdit s t) (h : RangesSound s) : RangesSound t := by
  cases k with
  | none => exact h
  | point p r => exact RangesSound.accept (h.congr rfl rfl rfl rfl rfl rfl rfl)
  | aisle x r ok => exact (h.setAisle x (ok (h.aisle x))).accept
  | defineExit e r ok => exact ((defineExitRt_monitor _ e _).ranges (h.setExit e ok)).accept
  | removeExit e =>
    have removed : RangesSound (setExitRec e { look s.map.exits e with defined := false } s) := h.setExit e (h.bias e).1
    unfold Machine.removeExit
    exact ((removeExitRt_monitor e _).ranges removed).accept
  | defineZone z r ok =>
    refine RangesSound.accept (RangesSound.setZone ?_ z ok)
    split
    · exact h
    · exact (setZoneRt_monitor z _ s).ranges h
  | removeZone z =>
    have removed : RangesSound (setZoneRec z { look s.map.zones z with defined := false } s) := h.setZone z (h.thresholds z)
    unfold Machine.removeZone
    exact ((setZoneRt_monitor z _ _).ranges removed).accept
  | place k r _ =>
    unfold writePlacement
    exact RangesSound.accept (h.congr rfl rfl rfl rfl rfl rfl rfl)
  | unplace i => exact (unplace_ranges i h).accept
  | clear => exact clearedMap_ranges h
  | script i steps ok => exact editLibrary_ranges i (h.setScript i ok)
  | kindMap i n =>
    have written : RangesSound (writeKindMap i n s) := h.congr rfl rfl rfl rfl rfl rfl rfl
    exact (recomputeAll_monitor _).ranges written.accept

/-! ## Mode and validated flag -/

/-- Only the mode, the validated flag and the result matter. -/
theorem ModeSound.congr {s t : State} (h : ModeSound s) (mode : t.mode = s.mode) (flag : t.map.validated = s.map.validated)
    (result : t.map.lastValidation = s.map.lastValidation) : ModeSound t := by
  refine ⟨fun r => ?_, by rw [result, mode]; exact h.running⟩
  unfold routing at r; rw [mode] at r
  rw [flag]; exact h.validated r

theorem MonitorMove.mode {s t : State} (k : MonitorMove s t) (h : ModeSound s) : ModeSound t := by
  obtain ⟨⟨z, a, sc, x, g, d, q, l, n, rfl⟩, -, -⟩ := k
  exact h.congr rfl rfl rfl

theorem BusMove.mode {s t : State} (k : BusMove s t) (h : ModeSound s) : ModeSound t := by
  obtain ⟨⟨m, d, q, l, b, p, dv, hd, n, rfl⟩, -, -⟩ := k
  exact h.congr rfl rfl rfl

/-- A change to a mode that routes needs a validated map, and only VALIDATING goes with a running validation. -/
theorem ModeSound.change {new : Mode} {cause : ModeCause} {outcome : ModeOutcome} {zone : Option ZoneId}
    {act : State → State} {s : State} (h : ∀ u, MonitorMove u (act u))
    (flag : new = .guard ∨ new = .alarm → s.map.validated = true)
    (running : s.map.lastValidation = .running ↔ new = .validating) :
    ModeSound (changeMode new cause outcome zone act s) := by
  refine (changeMode_monitor new cause outcome zone h s).mode ⟨fun r => flag ?_, running⟩
  simpa [routing] using r

theorem restartBlocks_results (s : State) :
    (restartBlocks s).map.validated = s.map.validated ∧ (restartBlocks s).map.lastValidation = s.map.lastValidation := by
  obtain ⟨u, ⟨⟨z, a, sc, x, g, d, q, l, n, e⟩, -, -⟩, ⟨z', a', sc', x', g', d', q', l', n', e'⟩, -, -⟩ :=
    restartBlocks_moves s
  have before : u.map = s.map := by rw [e]
  have after : (restartBlocks s).map = (openAisles u).map := by rw [e']
  rw [after, ← before]; exact ⟨rfl, rfl⟩

section Mode
variable {s : State} (h : ModeSound s)
include h

theorem ModeSound.notRunning (e : s.mode ≠ .validating) : s.map.lastValidation ≠ .running := fun r => e (h.running.mp r)

theorem ModeSound.completeValidation : ModeSound (completeValidation s) := by
  unfold Machine.completeValidation; split
  · split
    · have loaded : MonitorMove _ (Machine.forEach 24 loadBias
          (setResult .passed { s with map := { s.map with validated := true } })) := .forEach _ loadBias_monitor _
      obtain ⟨⟨z, a, sc, x, g, d, q, l, n, e⟩, -, -⟩ := loaded
      unfold passValidation; dsimp only; rw [e]
      exact .change (fun u => (startRun_monitor u).trans (enterGuard_monitor _)) (fun _ => rfl) ⟨nofun, nofun⟩
    · exact .change .refl (by simp) ⟨nofun, nofun⟩
  · exact h

theorem ModeSound.autoAlarm : ModeSound (autoAlarm s) := by
  unfold Machine.autoAlarm; split
  · exact h
  · next z rest _ =>
    dsimp only; split
    · next e =>
      have quiet := h.notRunning (by rw [e]; nofun)
      exact .change .refl (fun _ => h.validated (by simp [routing, e])) ⟨fun r => absurd r quiet, nofun⟩
    · exact h.congr rfl rfl rfl

theorem ModeSound.arm : ModeSound (arm s).state := by
  unfold Machine.arm; split <;> dsimp only [taken, refuse]
  · exact .change .refl (by simp) ⟨fun _ => rfl, fun _ => rfl⟩
  · exact h

theorem ModeSound.disarm : ModeSound (disarm s).state := by
  unfold Machine.disarm; split <;> dsimp only [taken, refuse]
  · next e => exact .change disarmEngine_monitor (by simp) ⟨fun r => absurd r (h.notRunning (by rw [e]; nofun)), nofun⟩
  · exact .change .refl (by simp) ⟨nofun, nofun⟩
  · exact h
  · exact h

theorem ModeSound.alarm : ModeSound (alarm s).state := by
  unfold Machine.alarm; split <;> dsimp only [taken, refuse]
  · next e =>
    exact .change .refl (fun _ => h.validated (by simp [routing, e])) ⟨fun r => absurd r (h.notRunning (by rw [e]; nofun)), nofun⟩
  · exact h

theorem ModeSound.standDown : ModeSound (standDown s).state := by
  unfold Machine.standDown; split
  · exact h
  · next e =>
    have alarm : s.mode = .alarm := by simpa using e
    split <;> dsimp only [taken, refuse]
    · exact h
    · exact .change enterGuard_monitor (fun _ => h.validated (by simp [routing, alarm]))
        ⟨fun r => absurd r (h.notRunning (by rw [alarm]; nofun)), nofun⟩

theorem ModeSound.setTiming (setting : Byte) (value : Half) : ModeSound (setTiming setting value s).state := by
  unfold Machine.setTiming; split
  · split
    · exact h
    · next t _ =>
      show ModeSound (storeTiming t s)
      unfold storeTiming; dsimp only; split
      · exact h.congr rfl rfl rfl
      · exact (recomputeAll_monitor _).mode (h.congr rfl rfl rfl)
  · exact h

/-- RESTART routes over a validated map alone, and leaves no validation running (R158). -/
theorem ModeSound.restart : ModeSound (restart s).state := by
  by_cases e : s.mode = .alarm
  · unfold Machine.restart; rw [if_pos e]; exact h
  · have quiet : (cancelled s).map.lastValidation ≠ .running := by
      unfold cancelled; split
      · nofun
      · next n => exact h.notRunning n
    have flag : (cancelled s).map.validated = s.map.validated := by unfold cancelled; split <;> rfl
    obtain ⟨sameFlag, sameResult⟩ := restartBlocks_results (cancelled s)
    rw [restart_eq s e]; dsimp only [taken]
    refine .change restartGuard_monitor (fun routes => ?_) ⟨fun r => absurd (sameResult ▸ r) quiet, fun v => ?_⟩
    · rw [sameFlag, flag]; by_contra c
      unfold restartMode at routes; simp [c] at routes
    · unfold restartMode at v; split at v <;> exact absurd v nofun

theorem ModeSound.writeBlocked (x : AisleId) (b : Bool) : ModeSound (writeBlocked x b s) :=
  (writeBlocked_monitor x b s).mode (h.congr rfl rfl rfl)

end Mode

/-- A request of the mode controller keeps the mode with the validated flag and the result. -/
theorem requestAct_mode {i : Instr} {s : State} (o : ownerOf i = .modes) (h : ModeSound s) :
    ModeSound (requestAct i s).state := by
  cases i
  case restart => exact h.restart
  case arm => exact h.arm
  case disarm => exact h.disarm
  case alarm => exact h.alarm
  case standDown => exact h.standDown
  case setTiming => exact h.setTiming _ _
  case blockAisle index =>
    show ModeSound (blockAisle index s).state
    unfold blockAisle; split
    · exact h
    · exact h.writeBlocked _ _
  case openAisle index =>
    show ModeSound (openAisle index s).state
    unfold openAisle; split
    · exact h
    · exact h.writeBlocked _ _
  case validationComplete | autoAlarmRequest => exact h
  all_goals exact absurd o nofun

/-- The mode is as it was, and the result of the last validation as well, or emptied. -/
def resultKept (s t : State) : Prop :=
  t.mode = s.mode ∧ (t.map.lastValidation = s.map.lastValidation ∨ t.map.lastValidation = .none)

theorem resultKept.trans {s t u : State} (h : resultKept s t) (k : resultKept t u) : resultKept s u := by
  refine ⟨k.1.trans h.1, k.2.elim (fun e => h.2.imp ?_ ?_) .inr⟩ <;> exact fun f => e.trans f

theorem MonitorMove.resultKept {s t : State} (k : MonitorMove s t) : resultKept s t := by
  obtain ⟨⟨z, a, sc, x, g, d, q, l, n, rfl⟩, -, -⟩ := k
  exact ⟨rfl, .inl rfl⟩

theorem HeadsMove.resultKept {s t : State} (k : HeadsMove s t) : resultKept s t := by
  obtain ⟨m, d, q, l, rfl⟩ := k
  exact ⟨rfl, .inl rfl⟩

theorem acceptMap_resultKept {s u : State} (h : resultKept s u) : resultKept s (acceptMap u) :=
  h.trans (.trans (t := { u with map := { u.map with validated := false } }) ⟨rfl, .inl rfl⟩ (acceptMap_monitor u).resultKept)

theorem unplace_resultKept (h : HeadId) (s : State) : resultKept s (unplace h s) := by
  unfold unplace; split
  · exact .trans (t := setPlacement h _ s) ⟨rfl, .inl rfl⟩ (enterAbsent_moves false h _).resultKept
  · exact ⟨rfl, .inl rfl⟩

/-- An edit of the map leaves the mode, and no validation result but the one before or none (R20). -/
theorem MapEdit.resultKept {s t : State} (k : MapEdit s t) : resultKept s t := by
  have same {u v : State} (mode : v.mode = u.mode) (result : v.map.lastValidation = u.map.lastValidation) :
      Machine.resultKept u v := ⟨mode, .inl result⟩
  cases k with
  | none => exact same rfl rfl
  | point p r => exact acceptMap_resultKept (same rfl rfl)
  | aisle x r _ => exact acceptMap_resultKept (same rfl rfl)
  | defineExit e r _ =>
    exact acceptMap_resultKept ((same (v := setExitRec e r s) rfl rfl).trans (defineExitRt_monitor _ e _).resultKept)
  | removeExit e =>
    unfold Machine.removeExit
    exact acceptMap_resultKept ((same (v := setExitRec e _ s) rfl rfl).trans (removeExitRt_monitor e _).resultKept)
  | defineZone z r _ => refine acceptMap_resultKept ?_; split <;> exact same rfl rfl
  | removeZone z => exact acceptMap_resultKept (same rfl rfl)
  | place h r _ => exact acceptMap_resultKept (same rfl rfl)
  | unplace h => exact acceptMap_resultKept (unplace_resultKept h s)
  | clear =>
    have undone : Machine.resultKept s (forEach 64 Machine.unplace s) :=
      forEach_induct (P := Machine.resultKept s) _ s (same rfl rfl) fun h t ht => ht.trans (unplace_resultKept h t)
    have removed := undone.trans (MonitorMove.forEach (n := 24) removeIfDefined removeIfDefined_monitor _).resultKept
    unfold clearedMap emptyTables
    generalize forEach 24 removeIfDefined (forEach 64 Machine.unplace s) = u at removed ⊢
    exact ⟨removed.1, .inr rfl⟩
  | script i steps _ =>
    obtain ⟨u, reloads, recomputes⟩ := editLibrary_moves i steps s
    have written := acceptMap_resultKept (same (u := s) (v := writeScript i steps s) rfl rfl)
    exact written.trans (reloads.resultKept.trans recomputes.resultKept)
  | kindMap i n =>
    have written := acceptMap_resultKept (same (u := s) (v := writeKindMap i n s) rfl rfl)
    exact written.trans (recomputeAll_monitor _).resultKept

theorem MapEdit.mode {s t : State} (k : MapEdit s t) (setup : s.mode = .setup) (h : ModeSound s) : ModeSound t := by
  obtain ⟨mode, result⟩ := k.resultKept
  have quiet : t.map.lastValidation ≠ .running := by
    rcases result with e | e <;> rw [e]
    · exact h.notRunning (by rw [setup]; nofun)
    · nofun
  refine ⟨fun r => ?_, ⟨fun r => absurd r quiet, fun v => ?_⟩⟩
  · simp [routing, mode, setup] at r
  · rw [mode, setup] at v; exact absurd v nofun

/-! ## Both -/

theorem hardReset_ranges (speed : BitVec 2) (pairEn : Bool) (role : Role) (s : State) :
    RangesSound (hardReset speed pairEn role s) := by
  have timing : TimingSound Timing.reset :=
    ⟨by decide, by decide, by decide, by decide, by decide, by decide⟩
  refine resetTables_ranges (fun i steps e => ?_) timing (fun p => ?_) rfl rfl
  · exact absurd ((look_replicate (n := 12) (none : Option (List ScriptStep)) i).symm.trans e) nofun
  · rw [show look (hardReset speed pairEn role s).scanner p = Contact.reset from look_replicate ..]
    exact ⟨Nat.zero_le _, nofun⟩

theorem hardReset_mode (speed : BitVec 2) (pairEn : Bool) (role : Role) (s : State) :
    ModeSound (hardReset speed pairEn role s) := ⟨nofun, nofun, nofun⟩

theorem requestAct_ranges (i : Instr) (s : State) (h : RangesSound s ∧ ModeSound s) :
    RangesSound (requestAct i s).state ∧ ModeSound (requestAct i s).state := by
  cases o : ownerOf i with
  | reset => rw [requestAct_reset s o]; exact h
  | modes => exact ⟨(requestAct_modes s o).ranges h.1, requestAct_mode o h.2⟩
  | map =>
    rcases requestAct_map s o with e | ⟨setup, edit⟩
    · rw [e]; exact h
    · exact ⟨edit.ranges h.1, edit.mode setup h.2⟩
  | bus => exact ⟨(requestAct_onBus s o).ranges h.1, (requestAct_onBus s o).mode h.2⟩
  | monitors => exact ⟨(requestAct_monitors s o).ranges h.1, (requestAct_monitors s o).mode h.2⟩

theorem eventOf_mode {c : Instr} {s : State} (o : ownerOf c = .modes) (h : ModeSound s) : ModeSound (eventOf c s) := by
  cases c
  case validationComplete => exact h.completeValidation
  case autoAlarmRequest => exact h.autoAlarm
  case restart | arm | disarm | alarm | standDown | setTiming | blockAisle | openAisle => exact h
  all_goals exact absurd o nofun

theorem eventOf_ranges (c : Instr) (s : State) (h : RangesSound s ∧ ModeSound s) :
    RangesSound (eventOf c s) ∧ ModeSound (eventOf c s) := by
  cases o : ownerOf c with
  | reset =>
    obtain ⟨speed, pairEn, role, rfl⟩ := ownerOf_reset o
    exact ⟨hardReset_ranges .., hardReset_mode ..⟩
  | modes => exact ⟨(eventOf_modes s o).ranges h.1, eventOf_mode o h.2⟩
  | map => rw [eventOf_map s o]; exact h
  | bus => exact ⟨(eventOf_onBus s o).ranges h.1, (eventOf_onBus s o).mode h.2⟩
  | monitors => exact ⟨(eventOf_monitors s o).ranges h.1, (eventOf_monitors s o).mode h.2⟩

end Sys2Proof.Machine

namespace Sys2Proof.Proofs

open Sys2Proof Sys2Proof.Machine

/-- Settles O60: each request and each event of the part's own keeps the ranges and the mode's bond to the map. -/
theorem stepKeepsRanges : Obligations.StepKeepsRanges := by
  unfold Obligations.StepKeepsRanges
  intro s t hs h
  have quiet {u v : State} (k : RangesSound u ∧ ModeSound u) (ranges : RangesSound u → RangesSound v)
      (mode : ModeSound u → ModeSound v) : RangesSound v ∧ ModeSound v := ⟨ranges k.1, mode k.2⟩
  exact step_keeps (P := fun u => RangesSound u ∧ ModeSound u) h hs
    (fun _ _ k => quiet k (fun r => r.congr rfl rfl rfl rfl rfl rfl rfl) fun m => m.congr rfl rfl rfl)
    (fun _ _ k => quiet k (fun r => r.congr rfl rfl rfl rfl rfl rfl rfl) fun m => m.congr rfl rfl rfl)
    (fun _ _ k => quiet k (fun r => r.congr rfl rfl rfl rfl rfl rfl rfl) fun m => m.congr rfl rfl rfl)
    requestAct_ranges eventOf_ranges

end Sys2Proof.Proofs
end

section
/-! The requests on points, aisles, exits and zones: what each answers, case by case (R1 to R7). -/

namespace Sys2Proof.Machine

/-! ## Codes and index fields -/

theorem actionOf_remove {b : Byte} (h : b = 0) : actionOf b = some false := by subst h; rfl
theorem actionOf_define {b : Byte} (h : b = 1) : actionOf b = some true := by subst h; rfl

theorem flagOf_cases (b : Byte) : (b = 0 ∧ flagOf b = some false) ∨ (b = 1 ∧ flagOf b = some true)
    ∨ (2 ≤ b.toNat ∧ flagOf b = none) := by
  unfold flagOf; split
  · next h => exact .inl ⟨BitVec.eq_of_toNat_eq h, rfl⟩
  · next h => exact .inr (.inl ⟨BitVec.eq_of_toNat_eq h, rfl⟩)
  · next h0 h1 => exact .inr (.inr ⟨by have : b.toNat ≠ 0 := h0; have : b.toNat ≠ 1 := h1; omega, rfl⟩)

theorem flagOf_none {b : Byte} (h : 2 ≤ b.toNat) : flagOf b = none := by
  rcases flagOf_cases b with ⟨rfl, -⟩ | ⟨rfl, -⟩ | ⟨-, e⟩
  · exact absurd h (by decide)
  · exact absurd h (by decide)
  · exact e

theorem flagOf_some {b : Byte} (h : b.toNat ≤ 1) : flagOf b = some (decide (b = 1)) := by
  rcases flagOf_cases b with ⟨rfl, e⟩ | ⟨rfl, e⟩ | ⟨g, -⟩
  · exact e
  · exact e
  · omega

theorem actionOf_none {b : Byte} (h : 2 ≤ b.toNat) : actionOf b = none := flagOf_none h

theorem actionOf_ne_remove {b : Byte} (h : b ≠ 0) : actionOf b ≠ some false := by
  rcases flagOf_cases b with ⟨e, -⟩ | ⟨-, e⟩ | ⟨-, e⟩
  · exact absurd e h
  · unfold actionOf; rw [e]; nofun
  · unfold actionOf; rw [e]; nofun

theorem pointKindOf_none {b : Byte} (h : 2 ≤ b.toNat) : pointKindOf b = none := by
  unfold pointKindOf; split
  · omega
  · omega
  · rfl

theorem passageOf_none {b : Byte} (h : 3 ≤ b.toNat) : passageOf b = none := by
  unfold passageOf; split
  · omega
  · omega
  · omega
  · rfl

theorem zoneField_none {b : Byte} (h : 64 ≤ b.toNat) (n : b ≠ 0xFF) : zoneField b = none := by
  unfold zoneField; rw [if_neg n, indexOf_none.mpr h]; rfl

theorem indexOf_some {n k : Nat} {i : Fin n} (h : k = i.val) : indexOf n k = some i := indexOf_eq_some.mpr h.symm

/-! ## Acceptance -/

/-- The part as the owning block finds it when a request is served (R169). -/
def begun (s : State) : State := { s with link := { s.link with serving := true } }

theorem begun_setup {s : State} (h : s.mode = .setup) : (begun s).mode = .setup := h

/-- A request whose service is known as a whole, with the link it leaves. -/
theorem servesFrom_by {i : Instr} {s : State} {f : PanelFrame} {act : State → Served} {code : ReplyCode} {data : List Byte}
    {l : Link} {P : State → Prop} {v : Served} (he : encodeRequest i = some f)
    (hx : exec i s = .next (takeRequest f act s)) (hr : Ready s) (hv : act (begun s) = v) (hc : v.code = code)
    (hd : (if code = .done then v.data else []) = data) (hl : v.state.link = l) (hP : ∀ l, P { v.state with link := l }) :
    ServesFrom i s code data l P := by
  subst hv hc hd hl
  refine ⟨f, _, he, hx, ?_, ?_⟩
  · simp only [takeRequest, hr.1, if_true, serveWith, formReply, servedLink]; rfl
  · simp only [takeRequest, hr.1, if_true, serveWith, formReply]; exact hP _

/-- A request whose service is known as a whole, with the notices it offers. -/
theorem serves_by {i : Instr} {s : State} {f : PanelFrame} {act : State → Served} {code : ReplyCode} {data : List Byte}
    {ns : List Notice} {P : State → Prop} {v : Served} (he : encodeRequest i = some f)
    (hx : exec i s = .next (takeRequest f act s)) (hr : Ready s) (hv : act (begun s) = v) (hc : v.code = code)
    (hd : (if code = .done then v.data else []) = data) (hl : v.state.link = servingLink ns s)
    (hP : ∀ l, P { v.state with link := l }) : Serves i s code data ns P := servesFrom_by he hx hr hv hc hd hl hP

/-- A refused request, as its block finds the part. -/
theorem refuses_by {i : Instr} {s : State} {f : PanelFrame} {act : State → Served} {code : ReplyCode}
    (he : encodeRequest i = some f) (hx : exec i s = .next (takeRequest f act s)) (hr : Ready s)
    (ha : act (begun s) = refuse code (begun s)) : Refuses i s code := refuses_of he hx hr ha

theorem servingLink_append (as bs : List Notice) (s : State) :
    servingLink (as ++ bs) s = offerAll bs (servingLink as s) := offerAll_append ..

/-- The part after an accepted map request in SETUP: what was written, `w`, differs from `u` in its validated flag and link
alone (R11, R40). -/
theorem acceptMap_written {s w u : State} (ns : List Notice) (hm : routing w = false)
    (hw : { w with map := { w.map with validated := false } } = { u with link := servingLink ns s }) :
    acceptMap w = { reevaluated everyExit u with link := servingLink (ns ++ exitNotices everyExit u) s } := by
  have linked : w.link = servingLink ns s := congrArg State.link hw
  rw [acceptMap_eq w hm, mapAccepted, hw, linked, servingLink_append]; rfl

/-- An accepted map request in SETUP: the records are written, notices of the edit are offered, and every defined exit is
re-evaluated (R11, R40). -/
theorem serves_accepted {i : Instr} {s : State} {f : PanelFrame} {act : State → Served} {code : ReplyCode} {w u : State}
    (ns : List Notice) (he : encodeRequest i = some f) (hx : exec i s = .next (takeRequest f act s)) (hr : Ready s)
    (ha : act (begun s) = taken code (acceptMap w)) (hm : routing w = false)
    (hw : { w with map := { w.map with validated := false } } = { u with link := servingLink ns s }) (hu : u.link = s.link) :
    Serves i s code [] (ns ++ exitNotices everyExit u) fun t => { t with link := s.link } = reevaluated everyExit u := by
  rw [acceptMap_written ns hm hw] at ha
  refine serves_by he hx hr ha rfl (by simp [taken]) rfl fun l => ?_
  rw [← hu]; rfl

/-! ## SET POINT -/

section Point
variable {action index kind zone : Byte} {s : State} (hm : s.mode = .setup)
include hm

theorem inSetup_taken (act : State → Served) : inSetup act s = act s := if_pos hm

theorem setPoint_badIndex (h : 240 ≤ index.toNat) : setPoint action index kind zone s = refuse .badIndex s := by
  unfold setPoint; rw [inSetup_taken hm]; simp only [indexOf_none.mpr h]

theorem setPoint_remove {p : PointId} (hp : index.toNat = p.val) (ha : action = 0) :
    setPoint action index kind zone s = taken .done (writePoint p { look s.map.points p with defined := false } s) := by
  unfold setPoint; rw [inSetup_taken hm]; simp only [indexOf_some hp, actionOf_remove ha, if_true]

theorem setPoint_other {p : PointId} (hp : index.toNat = p.val) (ha : action ≠ 0) :
    setPoint action index kind zone s = definePoint p action kind zone s := by
  unfold setPoint; rw [inSetup_taken hm]; simp only [indexOf_some hp, if_neg (actionOf_ne_remove ha)]

end Point

theorem definePoint_badIndex {p : PointId} {action kind zone : Byte} {s : State} (h : zoneField zone = none) :
    definePoint p action kind zone s = refuse .badIndex s := by unfold definePoint; simp only [h]

theorem definePoint_define {p : PointId} {action kind zone : Byte} {z : Option ZoneId} {k : PointKind} {s : State}
    (hz : zoneField zone = some z) (ha : action = 1) (hk : pointKindOf kind = some k) :
    definePoint p action kind zone s = taken .done (writePoint p ⟨true, k, z⟩ s) := by
  unfold definePoint; simp only [hz, actionOf_define ha, hk]

theorem definePoint_badValue {p : PointId} {action kind zone : Byte} {z : Option ZoneId} {s : State}
    (hz : zoneField zone = some z) (h : 2 ≤ action.toNat ∨ (action = 1 ∧ 2 ≤ kind.toNat)) :
    definePoint p action kind zone s = refuse .badValue s := by
  unfold definePoint
  rcases h with h | ⟨ha, hk⟩
  · simp only [hz, actionOf_none h]
  · simp only [hz, actionOf_define ha, pointKindOf_none hk]

/-- The record is written and the cleared table follows it (R2, R46). -/
theorem serves_writePoint {i : Instr} {s : State} {f : PanelFrame} {act : State → Served} (p : PointId) (r : Point)
    (he : encodeRequest i = some f) (hx : exec i s = .next (takeRequest f act s)) (hr : Ready s) (hm : s.mode = .setup)
    (ha : act (begun s) = taken .done (writePoint p r (begun s))) :
    let table :=
      store s.engine.table p (if r.defined then ⟨.noRoute, none, none, none⟩ else ⟨.undefined, none, none, none⟩)
    let u : State :=
      { s with
        map := { s.map with points := store s.map.points p r, validated := false }
        engine := { s.engine with table := table, digest := digestOf table } }
    Serves i s .done [] (exitNotices everyExit u) fun t => { t with link := s.link } = reevaluated everyExit u := by
  refine serves_accepted [] he hx hr ha (by simp [routing, begun, hm]) ?_ rfl
  simp only [followPoint, setPointRec, replaceTable, look_store_same]
  rfl

/-! ## SET AISLE -/

theorem aisleIndices_none {endA endB zone : Byte}
    (h : 240 ≤ endA.toNat ∨ 240 ≤ endB.toNat ∨ (64 ≤ zone.toNat ∧ zone ≠ 0xFF)) : aisleIndices endA endB zone = none := by
  unfold aisleIndices; split
  · next ha hb hz =>
    rcases h with h | h | ⟨h, n⟩
    · rw [indexOf_none.mpr h] at ha; cases ha
    · rw [indexOf_none.mpr h] at hb; cases hb
    · rw [zoneField_none h n] at hz; cases hz
  · rfl

theorem aisleIndices_some {endA endB zone : Byte} {a b : PointId} {z : Option ZoneId} (ha : endA.toNat = a.val)
    (hb : endB.toNat = b.val) (hz : zoneField zone = some z) : aisleIndices endA endB zone = some (a, b, z) := by
  unfold aisleIndices; simp only [indexOf_some ha, indexOf_some hb, hz]

theorem aisleValuesOk_iff (length : Half) (width : Byte) :
    aisleValuesOk length width = true ↔ (1 ≤ length.toNat ∧ length.toNat ≤ 4000) ∧ 1 ≤ width.toNat ∧ width.toNat ≤ 4 := by
  simp only [aisleValuesOk, Bool.and_eq_true, decide_eq_true_eq, and_assoc]
  rfl

section Aisle
variable {action : Byte} {index : Half} {endA endB : Byte} {length : Half} {width bearing passage zone : Byte} {s : State}

theorem setAisle_badIndex (hm : s.mode = .setup) (h : 480 ≤ index.toNat) :
    setAisle action index endA endB length width bearing passage zone s = refuse .badIndex s := by
  unfold setAisle; rw [inSetup_taken hm]; simp only [indexOf_none.mpr h]

theorem setAisle_remove (hm : s.mode = .setup) {x : AisleId} (hx : index.toNat = x.val) (ha : action = 0) :
    setAisle action index endA endB length width bearing passage zone s
      = taken .done (acceptMap (setAisleRec x { look s.map.aisles x with defined := false, blocked := false } s)) := by
  unfold setAisle; rw [inSetup_taken hm]; simp only [indexOf_some hx, actionOf_remove ha, if_true]

theorem setAisle_other (hm : s.mode = .setup) {x : AisleId} (hx : index.toNat = x.val) (ha : action ≠ 0) :
    setAisle action index endA endB length width bearing passage zone s
      = defineAisle x action endA endB length width bearing passage zone s := by
  unfold setAisle; rw [inSetup_taken hm]; simp only [indexOf_some hx, if_neg (actionOf_ne_remove ha)]

theorem defineAisle_badIndex {x : AisleId} (h : aisleIndices endA endB zone = none) :
    defineAisle x action endA endB length width bearing passage zone s = refuse .badIndex s := by
  unfold defineAisle; simp only [h]

theorem defineAisle_define {x : AisleId} {a b : PointId} {z : Option ZoneId} {g : Bearing} {way : Passage}
    (hi : aisleIndices endA endB zone = some (a, b, z)) (ha : action = 1) (hg : bearing.toNat = g.val)
    (hw : passageOf passage = some way) (ok : aisleValuesOk length width = true) :
    defineAisle x action endA endB length width bearing passage zone s
      = taken .done (acceptMap (setAisleRec x
          ⟨true, a, b, length.toNat, width.toNat, g, way, z, (look s.map.aisles x).blocked⟩ s)) := by
  unfold defineAisle; simp only [hi, actionOf_define ha, hw, indexOf_some hg, ok, if_true]

theorem defineAisle_badValue {x : AisleId} {i : PointId × PointId × Option ZoneId} (hi : aisleIndices endA endB zone = some i)
    (h : 2 ≤ action.toNat ∨ (action = 1 ∧ (16 ≤ bearing.toNat ∨ 3 ≤ passage.toNat ∨ length.toNat = 0 ∨ 4000 < length.toNat
      ∨ width.toNat = 0 ∨ 4 < width.toNat))) :
    defineAisle x action endA endB length width bearing passage zone s = refuse .badValue s := by
  obtain ⟨a, b, z⟩ := i
  unfold defineAisle; simp only [hi]
  split
  · next way g hact hway hg =>
    rcases h with h | ⟨-, h⟩
    · rw [actionOf_none h] at hact; cases hact
    · split
      · next ok =>
        rw [aisleValuesOk_iff] at ok
        rcases h with h | h | h | h | h | h
        · rw [indexOf_none.mpr h] at hg; cases hg
        · rw [passageOf_none h] at hway; cases hway
        all_goals omega
      · rfl
  · rfl

end Aisle

end Sys2Proof.Machine

namespace Sys2Proof.Proofs

open Sys2Proof Sys2Proof.Machine

/-- Settles O21: one equation of SET POINT for each of its cases. -/
theorem setPoint : Obligations.SetPoint := by
  unfold Obligations.SetPoint
  intro tag action index kind zone s hr hm
  have hb := begun_setup hm
  have hx := exec_setPoint tag action index kind zone s
  refine ⟨fun h => refuses_by rfl hx hr (setPoint_badIndex hb h), fun p hp => ⟨fun ha => ?_, fun ha h n => ?_, fun z hz =>
    ⟨fun k ha hk => ?_, fun h => ?_⟩⟩⟩
  · exact serves_writePoint p _ rfl hx hr hm (setPoint_remove hb hp ha)
  · exact refuses_by rfl hx hr ((setPoint_other hb hp ha).trans (definePoint_badIndex (zoneField_none h n)))
  · have ne : action ≠ 0 := by rw [ha]; decide
    exact serves_writePoint p _ rfl hx hr hm ((setPoint_other hb hp ne).trans (definePoint_define hz ha hk))
  · have ne : action ≠ 0 := by rintro rfl; rcases h with h | ⟨h, -⟩ <;> exact absurd h (by decide)
    exact refuses_by rfl hx hr ((setPoint_other hb hp ne).trans (definePoint_badValue hz h))

/-- Settles O22: one equation of SET AISLE for each of its cases. -/
theorem setAisle : Obligations.SetAisle := by
  unfold Obligations.SetAisle
  intro tag action index endA endB length width bearing passage zone s hr hm
  have hb := begun_setup hm
  have hx := exec_setAisle tag action index endA endB length width bearing passage zone s
  have resting : ∀ x r, routing (setAisleRec x r (begun s)) = false := fun _ _ => by simp [routing, begun, hm]
  refine ⟨fun h => refuses_by rfl hx hr (setAisle_badIndex hb h), fun x hi => ⟨fun ha => ?_, fun ha h => ?_,
    fun a b z hA hB hz => ⟨fun g way ha hg hw l1 l2 w1 w2 => ?_, fun h => ?_⟩⟩⟩
  · exact serves_accepted [] rfl hx hr (setAisle_remove hb hi ha) (resting _ _) rfl rfl
  · exact refuses_by rfl hx hr ((setAisle_other hb hi ha).trans (defineAisle_badIndex (aisleIndices_none h)))
  · have ne : action ≠ 0 := by rw [ha]; decide
    have ok := (aisleValuesOk_iff length width).mpr ⟨⟨l1, l2⟩, w1, w2⟩
    exact serves_accepted [] rfl hx hr ((setAisle_other hb hi ne).trans
      (defineAisle_define (aisleIndices_some hA hB hz) ha hg hw ok)) (resting _ _) rfl rfl
  · have ne : action ≠ 0 := by rintro rfl; rcases h with h | ⟨h, -⟩ <;> exact absurd h (by decide)
    exact refuses_by rfl hx hr ((setAisle_other hb hi ne).trans (defineAisle_badValue (aisleIndices_some hA hB hz) h))

end Sys2Proof.Proofs
end

section
/-! The requests on exits and zones: what each answers, case by case (R6, R7). -/

namespace Sys2Proof.Machine

/-! ## SET EXIT -/

/-- The EXIT notice of an exit that is removed while AVAILABLE (R43). -/
def removalNotices (s : State) (e : ExitId) : List Notice :=
  if (exitOf s e).available then [.exit e false .auto .none none] else []

theorem removeExitRt_eq (e : ExitId) (s : State) :
    removeExitRt e s
      = { s with exits := store s.exits e ExitRt.reset, link := offerAll (removalNotices s e) s.link } := by
  unfold removeExitRt removalNotices; split <;> rfl

theorem freshContact_eq (c : Option Position) : freshContact c = if c.isSome then .unknown else .none := by
  cases c <;> rfl

theorem defineExitRt_eq (d : Bool) (e : ExitId) (s : State) :
    defineExitRt d e s
      = { s with
          exits := store s.exits e
            (if d then
              { exitOf s e with
                contact := if (look s.map.exits e).contact.isSome then .unknown else .none
                copyDue := (look s.map.exits e).contact.isSome }
            else
              ⟨.auto, (look s.map.exits e).baseBias, if (look s.map.exits e).contact.isSome then .unknown else .none,
                availability .auto (if (look s.map.exits e).contact.isSome then .unknown else .none) (exitZoneState s e),
                (look s.map.exits e).contact.isSome⟩) } := by
  rw [← freshContact_eq]; unfold defineExitRt; split <;> rfl

theorem exitIndices_none {point row column : Byte} (h : 240 ≤ point.toNat ∨ contactField row column = none) :
    exitIndices point row column = none := by
  unfold exitIndices; split
  · next hp hc =>
    rcases h with h | h
    · rw [indexOf_none.mpr h] at hp; cases hp
    · rw [h] at hc; cases hc
  · rfl

theorem exitIndices_some {point row column : Byte} {p : PointId} {c : Option Position} (hp : point.toNat = p.val)
    (hc : contactField row column = some c) : exitIndices point row column = some (p, c) := by
  unfold exitIndices; simp only [indexOf_some hp, hc]

section Exit
variable {action index point : Byte} {bias : Half} {row column : Byte} {s : State}

theorem setExit_badIndex (hm : s.mode = .setup) (h : 24 ≤ index.toNat) :
    setExit action index point bias row column s = refuse .badIndex s := by
  unfold setExit; rw [inSetup_taken hm]; simp only [indexOf_none.mpr h]

theorem setExit_remove (hm : s.mode = .setup) {e : ExitId} (he : index.toNat = e.val) (ha : action = 0) :
    setExit action index point bias row column s = taken .done (removeExit e s) := by
  unfold setExit; rw [inSetup_taken hm]; simp only [indexOf_some he, actionOf_remove ha, if_true]

theorem setExit_other (hm : s.mode = .setup) {e : ExitId} (he : index.toNat = e.val) (ha : action ≠ 0) :
    setExit action index point bias row column s = defineExit e action point bias row column s := by
  unfold setExit; rw [inSetup_taken hm]; simp only [indexOf_some he, if_neg (actionOf_ne_remove ha)]

theorem defineExit_badIndex {e : ExitId} (h : exitIndices point row column = none) :
    defineExit e action point bias row column s = refuse .badIndex s := by unfold defineExit; simp only [h]

theorem defineExit_badValue {e : ExitId} {i : PointId × Option Position} (hi : exitIndices point row column = some i)
    (h : 2 ≤ action.toNat) : defineExit e action point bias row column s = refuse .badValue s := by
  obtain ⟨p, c⟩ := i
  unfold defineExit; simp only [hi, actionOf_none h]; rfl

theorem defineExit_define {e : ExitId} {p : PointId} {c : Option Position}
    (hi : exitIndices point row column = some (p, c)) (ha : action = 1) :
    defineExit e action point bias row column s
      = taken (if 5000 < bias.toNat then .clamped else .done)
          (acceptMap (defineExitRt (look s.map.exits e).defined e
            (setExitRec e ⟨true, p, clampTo 0 5000 bias.toNat, c⟩ s))) := by
  unfold defineExit; simp only [hi, actionOf_define ha, if_true]; rfl

end Exit

theorem clampTo_zero (high v : Nat) : clampTo 0 high v = min high v := by simp [clampTo]

/-! ## SET ZONE -/

theorem removeZone_eq (z : ZoneId) (s : State) :
    removeZone z s
      = acceptMap { s with
          map := { s.map with zones := store s.map.zones z { look s.map.zones z with defined := false } }
          zones := store s.zones z ZoneRt.reset } := rfl

theorem thresholdField_eq (b : Byte) (d : Nat) : thresholdField b d = if b = 0 then d else b.toNat := by
  have zero : b.toNat = 0 ↔ b = 0 := ⟨fun h => BitVec.eq_of_toNat_eq h, fun h => by rw [h]; rfl⟩
  unfold thresholdField; simp only [zero]

theorem thresholdField_range (b : Byte) {d : Nat} (low : 1 ≤ d) (high : d ≤ 255) :
    1 ≤ thresholdField b d ∧ thresholdField b d ≤ 255 := by
  have := b.isLt
  unfold thresholdField; split <;> omega

theorem storedSuspect_eq (suspect : Byte) :
    storedSuspect suspect = if thresholdField suspect 40 = 255 then 254 else thresholdField suspect 40 := by
  have range := thresholdField_range suspect (d := 40) (by decide) (by decide)
  show clampTo 1 254 (thresholdField suspect 40) = _
  unfold clampTo; split <;> omega

theorem storedSmoke_eq (suspect smoke : Byte) :
    storedSmoke suspect smoke
      = if thresholdField smoke 90 ≤ storedSuspect suspect then storedSuspect suspect + 1 else thresholdField smoke 90 := by
  have range := thresholdField_range smoke (d := 90) (by decide) (by decide)
  have below : storedSuspect suspect ≤ 254 := (clampTo_mem (by decide) _).2
  show clampTo (storedSuspect suspect + 1) 255 (thresholdField smoke 90) = _
  unfold clampTo; split <;> omega

theorem thresholdsClamped_eq (suspect smoke : Byte) :
    thresholdsClamped suspect smoke
      = !decide (storedSuspect suspect = thresholdField suspect 40 ∧ storedSmoke suspect smoke = thresholdField smoke 90) := by
  unfold thresholdsClamped; rw [Bool.decide_and, Bool.not_and]; rfl

section Zone
variable {action index suspect smoke sup : Byte} {s : State}

theorem setZone_badIndex (hm : s.mode = .setup) (h : 64 ≤ index.toNat) :
    setZone action index suspect smoke sup s = refuse .badIndex s := by
  unfold setZone; rw [inSetup_taken hm]; simp only [indexOf_none.mpr h]

theorem setZone_remove (hm : s.mode = .setup) {z : ZoneId} (hz : index.toNat = z.val) (ha : action = 0) :
    setZone action index suspect smoke sup s = taken .done (removeZone z s) := by
  unfold setZone; rw [inSetup_taken hm]; simp only [indexOf_some hz, actionOf_remove ha, if_true]

theorem setZone_other (hm : s.mode = .setup) {z : ZoneId} (hz : index.toNat = z.val) (ha : action ≠ 0) :
    setZone action index suspect smoke sup s = defineZone z action suspect smoke sup s := by
  unfold setZone; rw [inSetup_taken hm]; simp only [indexOf_some hz, if_neg (actionOf_ne_remove ha)]

theorem defineZone_badValue {z : ZoneId} (h : 2 ≤ action.toNat ∨ (action = 1 ∧ 2 ≤ sup.toNat)) :
    defineZone z action suspect smoke sup s = refuse .badValue s := by
  unfold defineZone
  rcases h with h | ⟨ha, hv⟩
  · simp only [actionOf_none h]
  · simp only [actionOf_define ha, flagOf_none hv]

theorem defineZone_define {z : ZoneId} (ha : action = 1) (hv : sup.toNat ≤ 1) :
    defineZone z action suspect smoke sup s
      = taken (if thresholdsClamped suspect smoke then .clamped else .done)
          (acceptMap { s with
            map := { s.map with
              zones := store s.map.zones z ⟨true, storedSuspect suspect, storedSmoke suspect smoke, decide (sup = 1)⟩ }
            zones := if (look s.map.zones z).defined then s.zones else store s.zones z ZoneRt.reset }) := by
  have fresh : (if (look s.map.zones z).defined then s else setZoneRt z ZoneRt.reset s)
      = { s with zones := if (look s.map.zones z).defined then s.zones else store s.zones z ZoneRt.reset } := by
    split <;> rfl
  unfold defineZone; simp only [actionOf_define ha, flagOf_some hv, fresh]
  rfl

end Zone

end Sys2Proof.Machine

namespace Sys2Proof.Proofs

open Sys2Proof Sys2Proof.Machine

/-- Settles O23: one equation of SET EXIT for each of its cases. -/
theorem setExit : Obligations.SetExit := by
  unfold Obligations.SetExit
  intro tag action index point bias row column s hr hm
  have hb := begun_setup hm
  have hx := exec_setExit tag action index point bias row column s
  have resting (w : State) (h : w.mode = .setup) : routing w = false := by simp [routing, h]
  refine ⟨fun h => refuses_by rfl hx hr (setExit_badIndex hb h), fun e he => ⟨fun ha => ?_, fun ha h => ?_, fun p c hp hc =>
    ⟨fun h => ?_, fun ha => ?_⟩⟩⟩
  · refine serves_accepted (removalNotices s e) rfl hx hr (setExit_remove hb he ha) ?_ ?_ rfl
    · exact resting _ (by rw [removeExitRt_eq]; exact hm)
    · rw [removeExitRt_eq]; rfl
  · exact refuses_by rfl hx hr ((setExit_other hb he ha).trans (defineExit_badIndex (exitIndices_none h)))
  · have ne : action ≠ 0 := by rintro rfl; exact absurd h (by decide)
    exact refuses_by rfl hx hr ((setExit_other hb he ne).trans (defineExit_badValue (exitIndices_some hp hc) h))
  · have ne : action ≠ 0 := by rw [ha]; decide
    have act := (setExit_other (bias := bias) hb he ne).trans (defineExit_define (exitIndices_some hp hc) ha)
    refine serves_accepted [] rfl hx hr act ?_ ?_ rfl
    · exact resting _ (by rw [defineExitRt_eq]; exact hm)
    · rw [defineExitRt_eq]; simp only [setExitRec_map, look_store_same, clampTo_zero]; rfl

/-- Settles O24: one equation of SET ZONE for each of its cases, with the thresholds of R7. -/
theorem setZone : Obligations.SetZone := by
  unfold Obligations.SetZone
  intro tag action index suspect smoke sup s hr hm
  have hb := begun_setup hm
  have hx := exec_setZone tag action index suspect smoke sup s
  have resting (w : State) (h : w.mode = .setup) : routing w = false := by simp [routing, h]
  simp only [← thresholdField_eq, ← storedSuspect_eq, ← storedSmoke_eq]
  refine ⟨fun h => refuses_by rfl hx hr (setZone_badIndex hb h), fun z hz => ⟨fun ha => ?_, fun h => ?_, fun ha hv => ?_⟩⟩
  · have act := (setZone_remove (suspect := suspect) (smoke := smoke) (sup := sup) hb hz ha).trans (congrArg (taken .done) (removeZone_eq z (begun s)))
    exact serves_accepted [] rfl hx hr act (resting _ hm) rfl rfl
  · have ne : action ≠ 0 := by rintro rfl; rcases h with h | ⟨h, -⟩ <;> exact absurd h (by decide)
    exact refuses_by rfl hx hr ((setZone_other hb hz ne).trans (defineZone_badValue h))
  · have ne : action ≠ 0 := by rw [ha]; decide
    have code : (if storedSuspect suspect = thresholdField suspect 40 ∧ storedSmoke suspect smoke = thresholdField smoke 90
        then ReplyCode.done else .clamped) = if thresholdsClamped suspect smoke then .clamped else .done := by
      rw [thresholdsClamped_eq]; split <;> simp_all
    rw [code]
    exact serves_accepted [] rfl hx hr ((setZone_other hb hz ne).trans (defineZone_define ha hv)) (resting _ hm) rfl rfl

end Sys2Proof.Proofs
end

section
/-! PLACE HEAD, UNPLACE HEAD and CLEAR MAP (R8 to R10, R12). -/

namespace Sys2Proof.Machine

/-! ## PLACE HEAD -/

theorem serialTaken_iff (s : State) (h : HeadId) (serial : Serial) :
    serialTaken s h serial = true ↔ ∃ k, k ≠ h ∧ (placementOf s k).defined = true ∧ (placementOf s k).serial = serial := by
  unfold serialTaken
  rw [Option.isSome_iff_ne_none, ne_eq, firstIndex_none]
  simp

section Place
variable {index : Byte} {serial : Serial} {point facing enabled : Byte} {s : State}

theorem placeHead_badIndex (hm : s.mode = .setup) (h : 64 ≤ index.toNat ∨ 240 ≤ point.toNat) :
    placeHead index serial point facing enabled s = refuse .badIndex s := by
  unfold placeHead; rw [inSetup_taken hm]
  split
  · next hi hp =>
    rcases h with h | h
    · rw [indexOf_none.mpr h] at hi; cases hi
    · rw [indexOf_none.mpr h] at hp; cases hp
  · rfl

theorem placeHead_badCode (hm : s.mode = .setup) {h : HeadId} {p : PointId} (hi : index.toNat = h.val)
    (hp : point.toNat = p.val) (bad : 16 ≤ facing.toNat ∨ 2 ≤ enabled.toNat) :
    placeHead index serial point facing enabled s = refuse .badValue s := by
  unfold placeHead; rw [inSetup_taken hm]; simp only [indexOf_some hi, indexOf_some hp]
  split
  · next hg hv =>
    rcases bad with bad | bad
    · rw [indexOf_none.mpr bad] at hg; cases hg
    · rw [flagOf_none bad] at hv; cases hv
  · rfl

/-- The last two checks of PLACE HEAD and the placement (R9). -/
theorem placeHead_checked (hm : s.mode = .setup) {h : HeadId} {p : PointId} {g : Bearing} (hi : index.toNat = h.val)
    (hp : point.toNat = p.val) (hg : facing.toNat = g.val) (hv : enabled.toNat ≤ 1) :
    placeHead index serial point facing enabled s
      = if (headOf s h).state ≠ .absent then refuse .inService s
        else if serialTaken s h serial then refuse .badValue s
        else taken .done (writePlacement h ⟨true, serial, p, g, decide (enabled = 1)⟩ s) := by
  unfold placeHead; rw [inSetup_taken hm]; simp only [indexOf_some hi, indexOf_some hp, indexOf_some hg, flagOf_some hv]

end Place

/-! ## UNPLACE HEAD -/

theorem store_store {α : Type} {n : Nat} (v : Vector α n) (i : Fin n) (a b : α) : store (store v i a) i b = store v i b :=
  table_ext fun j => by simp only [look_store]; split <;> rfl

/-- The TEST notice of a head that leaves SERVING while a test is pending (R131). -/
def testNotices (s : State) (h : HeadId) : List Notice := if (headOf s h).testPending then [.test h none] else []

/-- The part with a placement taken back and its head ABSENT (R10, R118). -/
def unplaced (h : HeadId) (s : State) : State :=
  { s with
    map := { s.map with placements := store s.map.placements h { placementOf s h with defined := false } }
    heads := { s.heads with records := store s.heads.records h Head.reset }
    selector := { s.selector with desired := store s.selector.desired h none }
    queue := s.queue.filter fun e => e.head != h
    link := offerAll (testNotices s h) s.link }

theorem endTest_eq (h : HeadId) (s : State) :
    endTest h s
      = { s with
          heads := { s.heads with records := store s.heads.records h { headOf s h with testPending := false } }
          link := offerAll (testNotices s h) s.link } := by
  unfold endTest testNotices; split
  · rfl
  · next e =>
    have same : ({ headOf s h with testPending := false } : Head) = headOf s h := by rw [← Bool.eq_false_of_not_eq_true e]
    rw [same, show store s.heads.records h (headOf s h) = s.heads.records from store_look _ h]; rfl

theorem unplace_defined {h : HeadId} {s : State} (d : (placementOf s h).defined = true) : unplace h s = unplaced h s := by
  unfold unplace; rw [if_pos d, enterAbsent, endTest_eq]
  unfold dropDisplay setDesired setHead absentRecord
  simp only [Bool.false_eq_true, if_false, store_store]
  rfl

theorem unplace_undefined {h : HeadId} {s : State} (d : (placementOf s h).defined = false) : unplace h s = s := by
  unfold unplace; simp [d]

theorem unplaceHead_badIndex {index : Byte} {s : State} (hm : s.mode = .setup) (h : 64 ≤ index.toNat) :
    unplaceHead index s = refuse .badIndex s := by
  unfold unplaceHead; rw [inSetup_taken hm]; simp only [indexOf_none.mpr h]

theorem unplaceHead_taken {index : Byte} {s : State} {h : HeadId} (hm : s.mode = .setup) (hi : index.toNat = h.val) :
    unplaceHead index s = taken .done (acceptMap (unplace h s)) := by
  unfold unplaceHead; rw [inSetup_taken hm]; simp only [indexOf_some hi]

end Sys2Proof.Machine

namespace Sys2Proof.Proofs

open Sys2Proof Sys2Proof.Machine

/-- Settles O25: the checks of PLACE HEAD in their order, and UNPLACE HEAD over a placement that is defined or not. -/
theorem placeAndUnplaceHead : Obligations.PlaceAndUnplaceHead := by
  unfold Obligations.PlaceAndUnplaceHead
  intro tag index serial point facing enabled s hr hm
  have hb := begun_setup hm
  have hx := exec_placeHead tag index serial point facing enabled s
  have hu := exec_unplaceHead tag index s
  have resting (w : State) (h : w.mode = .setup) : routing w = false := by simp [routing, h]
  have again {v w : State} (h : v = w) : taken .done (acceptMap v) = taken .done (acceptMap w) := by rw [h]
  refine ⟨fun h => ⟨refuses_by rfl hx hr (placeHead_badIndex hb (.inl h)), refuses_by rfl hu hr (unplaceHead_badIndex hb h)⟩,
    fun h hi => ⟨fun hp => refuses_by rfl hx hr (placeHead_badIndex hb (.inr hp)), fun p hp =>
      ⟨fun bad => refuses_by rfl hx hr (placeHead_badCode hb hi hp bad), fun g hg hv => ?_⟩, fun d => ?_, fun d => ?_⟩⟩
  · have checked := placeHead_checked (serial := serial) hb hi hp hg hv
    have iff := serialTaken_iff (begun s) h serial
    refine ⟨fun busy => ?_, fun idle held => ?_, fun idle free => ?_⟩
    · exact refuses_by rfl hx hr (checked.trans (if_pos busy))
    · exact refuses_by rfl hx hr (checked.trans ((if_neg (not_not.mpr idle)).trans (if_pos (iff.mpr held))))
    · exact serves_accepted [] rfl hx hr (checked.trans ((if_neg (not_not.mpr idle)).trans (if_neg (mt iff.mp free))))
        (resting _ hm) rfl rfl
  · have act := (unplaceHead_taken hb hi).trans (again (unplace_undefined (s := begun s) d))
    exact serves_accepted [] rfl hu hr act (resting _ hm) rfl rfl
  · have act := (unplaceHead_taken hb hi).trans (again (unplace_defined (s := begun s) d))
    exact serves_accepted (testNotices s h) rfl hu hr act (resting _ hm) rfl rfl

end Sys2Proof.Proofs
end

section
/-! CLEAR MAP in one piece: what its two passes over heads and exits leave (R12). -/

namespace Sys2Proof.Machine

/-! ## Placements taken back one after another -/

/-- A placed head among those listed. -/
def isGone (hs : List HeadId) (s : State) (h : HeadId) : Bool := decide (h ∈ hs) && (placementOf s h).defined

/-- The TEST notices of the placed heads among those listed. -/
def goneTests (hs : List HeadId) (s : State) : List Notice :=
  (hs.filter fun h => (placementOf s h).defined && (headOf s h).testPending).map fun h => .test h none

/-- The part with every placement of the list taken back. -/
def unplacedAll (hs : List HeadId) (s : State) : State :=
  { s with
    map := { s.map with
      placements := tabulate 64 fun h =>
        if isGone hs s h then { placementOf s h with defined := false } else placementOf s h }
    heads := { s.heads with records := tabulate 64 fun h => if isGone hs s h then Head.reset else headOf s h }
    selector := { s.selector with desired := tabulate 64 fun h => if isGone hs s h then none else desiredOf s h }
    queue := s.queue.filter fun e => !isGone hs s e.head
    link := offerAll (goneTests hs s) s.link }

theorem tabulate_look {α : Type} {n : Nat} (v : Vector α n) : tabulate n (look v) = v :=
  table_ext fun i => look_tabulate _ i

theorem isGone_cons_undefined {h : HeadId} {s : State} (hs : List HeadId) (d : (placementOf s h).defined = false) :
    isGone (h :: hs) s = isGone hs s := by
  funext k
  by_cases e : k = h
  · subst e; simp [isGone, d]
  · simp [isGone, e]

section Unplaced
variable {h : HeadId} {hs : List HeadId} {s : State}

theorem placementOf_unplaced (k : HeadId) :
    placementOf (unplaced h s) k = if h = k then { placementOf s h with defined := false } else placementOf s k :=
  look_store ..

theorem headOf_unplaced (k : HeadId) : headOf (unplaced h s) k = if h = k then Head.reset else headOf s k := look_store ..

theorem desiredOf_unplaced (k : HeadId) : desiredOf (unplaced h s) k = if h = k then none else desiredOf s k := look_store ..

variable (new : h ∉ hs) (d : (placementOf s h).defined = true)

include new in
theorem isGone_unplaced_same : isGone hs (unplaced h s) h = false := by simp [isGone, new]

theorem isGone_unplaced_ne {k : HeadId} (n : h ≠ k) : isGone hs (unplaced h s) k = isGone hs s k := by
  simp [isGone, placementOf_unplaced, n]

include d in
theorem isGone_cons_same : isGone (h :: hs) s h = true := by simp [isGone, d]

theorem isGone_cons_ne {k : HeadId} (n : h ≠ k) : isGone (h :: hs) s k = isGone hs s k := by simp [isGone, Ne.symm n]

include new in
theorem goneTests_unplaced : goneTests hs (unplaced h s) = goneTests hs s := by
  unfold goneTests
  congr 1
  refine List.filter_congr fun k hk => ?_
  have n : h ≠ k := fun e => new (e ▸ hk)
  rw [placementOf_unplaced, headOf_unplaced, if_neg n, if_neg n]

include d in
theorem goneTests_cons : goneTests (h :: hs) s = testNotices s h ++ goneTests hs s := by
  unfold goneTests testNotices
  by_cases t : (headOf s h).testPending = true <;> simp [d, t]

include new d in
/-- A column that the heads taken back set to a value, and the others keep. -/
theorem tabulate_unplaced {α : Type} (read : State → HeadId → α) (gone : State → HeadId → α)
    (same : read (unplaced h s) h = gone s h) (other : ∀ k, h ≠ k → read (unplaced h s) k = read s k)
    (otherGone : ∀ k, h ≠ k → gone (unplaced h s) k = gone s k) :
    (tabulate 64 fun k => if isGone hs (unplaced h s) k then gone (unplaced h s) k else read (unplaced h s) k)
      = tabulate 64 fun k => if isGone (h :: hs) s k then gone s k else read s k := by
  congr 1; funext k
  by_cases n : h = k
  · subst n; rw [isGone_unplaced_same new, isGone_cons_same d, if_neg nofun, if_pos rfl, same]
  · rw [isGone_unplaced_ne n, isGone_cons_ne n, other k n, otherGone k n]

include new d in
theorem unplacedAll_unplaced : unplacedAll hs (unplaced h s) = unplacedAll (h :: hs) s := by
  have placements := tabulate_unplaced new d placementOf (fun s k => { placementOf s k with defined := false })
    (by rw [placementOf_unplaced, if_pos rfl]) (fun k n => by rw [placementOf_unplaced, if_neg n])
    (fun k n => by dsimp only; rw [placementOf_unplaced, if_neg n])
  have records := tabulate_unplaced new d headOf (fun _ _ => Head.reset) (by rw [headOf_unplaced, if_pos rfl])
    (fun k n => by rw [headOf_unplaced, if_neg n]) (fun _ _ => rfl)
  have desired := tabulate_unplaced new d desiredOf (fun _ _ => none) (by rw [desiredOf_unplaced, if_pos rfl])
    (fun k n => by rw [desiredOf_unplaced, if_neg n]) (fun _ _ => rfl)
  have queue : ((s.queue.filter fun e => e.head != h).filter fun e => !isGone hs (unplaced h s) e.head)
      = s.queue.filter fun e => !isGone (h :: hs) s e.head := by
    rw [List.filter_filter]
    refine List.filter_congr fun e _ => ?_
    by_cases n : h = e.head
    · rw [← n, isGone_cons_same d]; simp
    · rw [isGone_unplaced_ne n, isGone_cons_ne n]; simp [Ne.symm n]
  have link : offerAll (goneTests hs (unplaced h s)) (offerAll (testNotices s h) s.link)
      = offerAll (goneTests (h :: hs) s) s.link := by
    rw [goneTests_unplaced new, goneTests_cons d, offerAll_append]
  unfold unplacedAll
  rw [placements, records, desired, ← queue, ← link]
  rfl

end Unplaced

theorem unplacedAll_skip {h : HeadId} {s : State} (hs : List HeadId) (d : (placementOf s h).defined = false) :
    unplacedAll hs s = unplacedAll (h :: hs) s := by
  have tests : goneTests (h :: hs) s = goneTests hs s := by simp [goneTests, d]
  unfold unplacedAll; rw [isGone_cons_undefined hs d, tests]

theorem foldl_unplace (hs : List HeadId) (once : hs.Nodup) (s : State) :
    hs.foldl (fun s h => unplace h s) s = unplacedAll hs s := by
  induction hs generalizing s with
  | nil =>
    have none : isGone [] s = fun _ => false := by funext k; simp [isGone]
    unfold unplacedAll; rw [none]
    simp only [Bool.false_eq_true, if_false, Bool.not_false, List.filter_true]
    rw [show tabulate 64 (fun h => placementOf s h) = s.map.placements from tabulate_look _,
      show tabulate 64 (fun h => headOf s h) = s.heads.records from tabulate_look _,
      show tabulate 64 (fun h => desiredOf s h) = s.selector.desired from tabulate_look _]
    rfl
  | cons h hs ih =>
    obtain ⟨new, once⟩ := List.nodup_cons.mp once
    rw [List.foldl_cons, ih once]
    by_cases d : (placementOf s h).defined = true
    · rw [unplace_defined d, unplacedAll_unplaced new d]
    · rw [unplace_undefined (Bool.eq_false_of_not_eq_true d), unplacedAll_skip hs (Bool.eq_false_of_not_eq_true d)]

/-! ## Exits removed one after another -/

/-- The EXIT notices of the defined exits of the list that were AVAILABLE. -/
def closedNotices (es : List ExitId) (s : State) : List Notice :=
  (es.filter fun e => (look s.map.exits e).defined && (exitOf s e).available).map fun e => .exit e false .auto .none none

theorem removeIfDefined_eq (e : ExitId) (s : State) :
    ∃ r, removeIfDefined e s = { s with exits := store s.exits e r, link := offerAll (closedNotices [e] s) s.link } := by
  unfold removeIfDefined; split
  · next d =>
    refine ⟨ExitRt.reset, (removeExitRt_eq e s).trans ?_⟩
    have one : removalNotices s e = closedNotices [e] s := by
      unfold removalNotices closedNotices
      by_cases a : (exitOf s e).available = true <;> simp [d, a]
    rw [one]
  · next d =>
    have nothing : closedNotices [e] s = [] := by simp [closedNotices, d]
    refine ⟨exitOf s e, ?_⟩
    rw [nothing, show store s.exits e (exitOf s e) = s.exits from store_look _ e]
    rfl

theorem foldl_removeIfDefined (es : List ExitId) (once : es.Nodup) (s : State) :
    ∃ x, es.foldl (fun s e => removeIfDefined e s) s
      = { s with exits := x, link := offerAll (closedNotices es s) s.link } := by
  induction es generalizing s with
  | nil => exact ⟨s.exits, rfl⟩
  | cons e es ih =>
    obtain ⟨new, once⟩ := List.nodup_cons.mp once
    obtain ⟨r, eq⟩ := removeIfDefined_eq e s
    obtain ⟨x, rest⟩ := ih once (removeIfDefined e s)
    have later : closedNotices es (removeIfDefined e s) = closedNotices es s := by
      unfold closedNotices; rw [eq]
      congr 1
      refine List.filter_congr fun k hk => ?_
      have n : e ≠ k := fun h => new (h ▸ hk)
      rw [show exitOf { s with exits := store s.exits e r, link := offerAll (closedNotices [e] s) s.link } k = exitOf s k from
        look_store_ne _ _ n]
    have joined : closedNotices (e :: es) s = closedNotices [e] s ++ closedNotices es s := by
      rw [closedNotices, closedNotices, closedNotices, ← List.map_append, ← List.filter_append]; rfl
    refine ⟨x, ?_⟩
    rw [List.foldl_cons, rest, later, joined, offerAll_append, eq]

/-! ## CLEAR MAP -/

/-- What CLEAR MAP leaves (R12). -/
def emptiedMap (s : State) : State :=
  { s with
    map := MapStore.reset
    zones := Vector.replicate 64 ZoneRt.reset
    exits := Vector.replicate 24 ExitRt.reset
    engine := { s.engine with table := clearedTable MapStore.reset, digest := digestOf (clearedTable MapStore.reset) }
    heads := { s.heads with records := tabulate 64 fun h => if (placementOf s h).defined then Head.reset else headOf s h }
    selector := { s.selector with desired := tabulate 64 fun h => if (placementOf s h).defined then none else desiredOf s h }
    queue := s.queue.filter fun e => !(placementOf s e.head).defined }

theorem emptyTables_eq (s : State) :
    emptyTables s
      = { s with
          map := MapStore.reset
          zones := Vector.replicate 64 ZoneRt.reset
          exits := Vector.replicate 24 ExitRt.reset
          link := offerAll (closedNotices (List.finRange 24) s) s.link } := by
  obtain ⟨x, exits⟩ := foldl_removeIfDefined (List.finRange 24) (List.nodup_finRange 24) s
  unfold emptyTables; rw [forEach, exits]

theorem clearMap_eq {s : State} (hm : s.mode = .setup) :
    clearMap s
      = taken .done { emptiedMap s with
          link := offerAll (goneTests (List.finRange 64) s ++ closedNotices (List.finRange 24) s) s.link } := by
  have every : isGone (List.finRange 64) s = fun h => (placementOf s h).defined := by funext h; simp [isGone]
  have heads : forEach 64 unplace s = unplacedAll (List.finRange 64) s := foldl_unplace _ (List.nodup_finRange 64) s
  have cleared : clearMap s = taken .done (clearedMap s) := by unfold clearMap; rw [inSetup_taken hm]; rfl
  rw [cleared, clearedMap, emptyTables_eq, heads, offerAll_append]
  unfold unplacedAll emptiedMap
  rw [every]
  rfl

end Sys2Proof.Machine

namespace Sys2Proof.Proofs

open Sys2Proof Sys2Proof.Machine

/-- Settles O26: the passes over heads and exits in closed form, then the tables of a hard reset. -/
theorem clearMap : Obligations.ClearMap := by
  unfold Obligations.ClearMap
  intro tag s hr hm
  refine serves_by rfl (exec_clearMap tag s) hr (clearMap_eq (begun_setup hm)) rfl (by simp [taken]) rfl fun l => ?_
  rfl

end Sys2Proof.Proofs
end

section
/-! BLOCK AISLE and OPEN AISLE, and the change they hand to the route engine (R5, R44, R63, R64). -/

namespace Sys2Proof.Machine

/-! ## What the engine takes -/

/-- A run starts from the part `w`, which `s` shares its engine with, and `t` its snapshot and map. -/
theorem startsRun_of {s w t : State} (h : t.engine = (startRun w).engine) (engine : w.engine = s.engine)
    (inputs : takeSnapshot t = takeSnapshot w) (map : t.map = w.map) : StartsRun s t := by
  unfold StartsRun; rw [h, inputs, map, ← engine]; rfl

theorem markChange_publishing {c : ChangeClass} {g : Engine} (h : g.run = .publishing) :
    markChange c g = { g with pendingFlag := true } := by unfold markChange; simp [h]

theorem markChange_loosening (g : Engine) : markChange .loosening g = { g with pendingFlag := true } := by
  unfold markChange; split
  · rfl
  · rfl
  · next e _ => cases e

theorem markChange_tightening {g : Engine} (h : g.run ≠ .publishing) :
    markChange .tightening g
      = if g.firmMark then { g with pendingFlag := true } else { g with abandonMark := true } := by
  unfold markChange; split
  · next e => exact absurd e h
  · next e _ => cases e
  · rfl

/-- A change handed over in the part `w` is taken by Table 3.6. -/
theorem takesChange_of {c : ChangeClass} {s w t : State} (h : t.engine = (handChange c w).engine) (engine : w.engine = s.engine)
    (mode : w.mode = s.mode) (inputs : takeSnapshot t = takeSnapshot w) (map : t.map = w.map) : TakesChange c s t := by
  have routes : routing w = routing s := by unfold routing; rw [mode]
  unfold handChange at h; rw [routes] at h
  unfold TakesChange
  by_cases r : routing s = true
  · rw [if_pos r] at h
    rw [if_neg (by rw [r]; nofun)]
    by_cases idle : w.engine.run = .idle
    · rw [if_pos idle] at h
      rw [← engine, idle]
      exact startsRun_of h engine inputs map
    · rw [if_neg idle] at h
      rw [engine] at h idle
      cases run : s.engine.run
      case idle => exact absurd run idle
      case publishing => exact h.trans (markChange_publishing run)
      all_goals
        cases c
        · by_cases firm : s.engine.firmMark = true <;> simpa [markChange_tightening, run, firm] using h
        · exact h.trans (markChange_loosening _)
  · rw [if_neg r] at h
    rw [if_pos (Bool.eq_false_of_not_eq_true r), h, engine]

theorem takeSnapshot_handChange (c : ChangeClass) (s : State) (l : Link) :
    takeSnapshot { handChange c s with link := l } = takeSnapshot s := by
  obtain ⟨e, h⟩ := handChange_frame c s
  rw [h]; rfl

/-! ## The two requests -/

theorem definedAisle_none {s : State} {index : Half} (h : 480 ≤ index.toNat) : definedAisle s index = none := by
  unfold definedAisle; rw [indexOf_none.mpr h]

theorem definedAisle_undefined {s : State} {index : Half} {x : AisleId} (hi : index.toNat = x.val)
    (d : (look s.map.aisles x).defined = false) : definedAisle s index = none := by
  unfold definedAisle; rw [indexOf_some hi]; simp [d]

theorem definedAisle_some {s : State} {index : Half} {x : AisleId} (hi : index.toNat = x.val)
    (d : (look s.map.aisles x).defined = true) : definedAisle s index = some x := by
  unfold definedAisle; rw [indexOf_some hi]; simp [d]

/-- BLOCK AISLE for the flag set, OPEN AISLE for the flag cleared. -/
def flagAisle (b : Bool) (index : Half) (s : State) : Served :=
  match definedAisle s index with
  | none => refuse .badIndex s
  | some x => taken .done (writeBlocked x b s)

/-- The class of a change of a blocked flag (R5). -/
def flagClass (b : Bool) : ChangeClass := if b then .tightening else .loosening

section Flag
variable {i : Instr} {s : State} {f : PanelFrame} {b : Bool} {index : Half} (he : encodeRequest i = some f)
  (hx : exec i s = .next (takeRequest f (flagAisle b index) s)) (hr : Ready s)
include he hx hr

theorem refuses_flagAisle (h : definedAisle s index = none) : Refuses i s .badIndex := by
  refine refuses_by he hx hr ?_
  have none : definedAisle (begun s) index = none := h
  unfold flagAisle; rw [none]

theorem serves_flagAisle_same {x : AisleId} (h : definedAisle s index = some x) (same : (look s.map.aisles x).blocked = b) :
    Serves i s .done [] [] (OnlyLink s) := by
  have found : definedAisle (begun s) index = some x := h
  have act : flagAisle b index (begun s) = taken .done (begun s) := by
    unfold flagAisle; rw [found]
    exact congrArg (taken .done) (if_pos same)
  exact serves_by he hx hr act rfl rfl rfl fun _ => rfl

theorem serves_flagAisle_change {x : AisleId} (h : definedAisle s index = some x) (new : (look s.map.aisles x).blocked ≠ b) :
    Serves i s .done [] [] fun t =>
      { t with link := s.link, engine := s.engine } = setAisleRec x { look s.map.aisles x with blocked := b } s
        ∧ TakesChange (flagClass b) s t := by
  have found : definedAisle (begun s) index = some x := h
  obtain ⟨e, handed⟩ := handChange_frame (flagClass b) (setAisleRec x { look s.map.aisles x with blocked := b } (begun s))
  have act : flagAisle b index (begun s)
      = taken .done (handChange (flagClass b) (setAisleRec x { look s.map.aisles x with blocked := b } (begun s))) := by
    unfold flagAisle; rw [found]
    exact congrArg (taken .done) (if_neg new)
  refine serves_by he hx hr act rfl (by simp [taken]) ?_ fun l => ⟨?_, ?_⟩
  · dsimp only [taken]; rw [handed]; rfl
  · dsimp only [taken]; rw [handed]; rfl
  · refine takesChange_of (w := setAisleRec x { look s.map.aisles x with blocked := b } (begun s)) rfl rfl rfl
      (takeSnapshot_handChange _ _ l) ?_
    dsimp only [taken]; rw [handed]

end Flag

end Sys2Proof.Machine

namespace Sys2Proof.Proofs

open Sys2Proof Sys2Proof.Machine

/-- Settles O28: both requests write one flag, and a change of it is handed to the engine. -/
theorem blockAndOpenAisle : Obligations.BlockAndOpenAisle := by
  unfold Obligations.BlockAndOpenAisle
  intro tag index s hr
  have block : exec (.blockAisle tag index) s
      = .next (takeRequest (requestFrame (.blockAisle tag index)) (flagAisle true index) s) := exec_blockAisle tag index s
  have opens : exec (.openAisle tag index) s
      = .next (takeRequest (requestFrame (.openAisle tag index)) (flagAisle false index) s) := exec_openAisle tag index s
  have refused (h : definedAisle s index = none) :
      Refuses (.blockAisle tag index) s .badIndex ∧ Refuses (.openAisle tag index) s .badIndex :=
    ⟨refuses_flagAisle rfl block hr h, refuses_flagAisle rfl opens hr h⟩
  refine ⟨fun h => refused (definedAisle_none h), fun x hi => ⟨fun d => refused (definedAisle_undefined hi d), fun d => ?_⟩⟩
  have found := definedAisle_some hi d
  refine ⟨fun b => ?_, fun b => ?_, fun b => ?_, fun b => ?_⟩
  · exact serves_flagAisle_same rfl block hr found b
  · exact serves_flagAisle_same rfl opens hr found b
  · exact serves_flagAisle_change rfl block hr found (by rw [b]; nofun)
  · exact serves_flagAisle_change rfl opens hr found (by rw [b]; nofun)

end Sys2Proof.Proofs
end

section
/-! SET SCRIPT and SET KIND MAP: the checks on a script, and what the heads and displays take of a new library (R76, R77,
R81 to R84, R123). -/

namespace Sys2Proof.Machine

/-! ## The checks -/

theorem scriptOk_iff (steps : List ScriptStep) :
    scriptOk steps = true ↔
      1 ≤ steps.length ∧ steps.length ≤ 24
      ∧ ∀ (n : Nat) (step : ScriptStep), steps[n]? = some step →
        match step with
        | .light _ _ hold => 1 ≤ hold ∧ hold ≤ 8
        | .loop target count => target < n ∧ count ≤ 15 ∧ ∃ arrow glyph hold, steps[target]? = some (.light arrow glyph hold)
        | .finish => True := by
  have one (n : Nat) (step : ScriptStep) : stepOk steps n step = true ↔
      match step with
      | .light _ _ hold => 1 ≤ hold ∧ hold ≤ 8
      | .loop target count => target < n ∧ count ≤ 15 ∧ ∃ arrow glyph hold, steps[target]? = some (.light arrow glyph hold)
      | .finish => True := by
    cases step with
    | light arrow glyph hold => simp [stepOk]
    | loop target count =>
      simp only [stepOk, Bool.and_eq_true, decide_eq_true_eq, and_assoc]
      split
      · next arrow glyph hold e => simp [e]
      · next no =>
        have none : ¬∃ arrow glyph hold, steps[target]? = some (.light arrow glyph hold) := fun ⟨a, g, h, e⟩ => no a g h e
        simp [none]
    | finish => simp [stepOk]
  simp only [scriptOk, Bool.and_eq_true, decide_eq_true_eq, List.all_eq_true, Prod.forall, List.mem_zipIdx_iff_getElem?, one,
    and_assoc]
  exact Iff.rfl.and (Iff.rfl.and ⟨fun h n step e => h step n e, fun h step n e => h n step e⟩)

section Script
variable {action script : Byte} {body : List Byte} {s : State}

theorem setScript_badLength (h : scriptLengthOk action body = false) : setScript action script body s = refuse .badLength s := by
  unfold setScript; simp [h]

theorem setScript_request (hm : s.mode = .setup) (h : scriptLengthOk action body = true) :
    setScript action script body s = scriptRequest action script body s := by
  unfold setScript; rw [if_pos h, inSetup_taken hm]

theorem scriptRequest_badIndex (h : script.toNat = 0 ∨ 13 ≤ script.toNat) :
    scriptRequest action script body s = refuse .badIndex s := by
  unfold scriptRequest; split
  · rfl
  · next n =>
    have none : indexOf 12 (script.toNat - 1) = none := indexOf_none.mpr (by omega)
    rw [none]

section Named
variable {i : Fin 12} (hi : script.toNat = i.val + 1)
include hi

theorem scriptRequest_remove (ha : action = 0) :
    scriptRequest action script body s = taken .done (editLibrary i none s) := by
  unfold scriptRequest
  rw [if_neg (by omega), indexOf_some (i := i) (by omega)]; simp only [actionOf_remove ha]

theorem scriptRequest_define {steps : List ScriptStep} (ha : action = 1) (h : carriedSteps body = some steps) :
    scriptRequest action script body s = taken .done (editLibrary i (some steps) s) := by
  unfold scriptRequest
  rw [if_neg (by omega), indexOf_some (i := i) (by omega)]; simp only [actionOf_define ha, h]

theorem scriptRequest_badSteps (ha : action = 1) (h : carriedSteps body = none) :
    scriptRequest action script body s = refuse .badValue s := by
  unfold scriptRequest
  rw [if_neg (by omega), indexOf_some (i := i) (by omega)]; simp only [actionOf_define ha, h]

theorem scriptRequest_badAction (h : 2 ≤ action.toNat) : scriptRequest action script body s = refuse .badValue s := by
  unfold scriptRequest
  rw [if_neg (by omega), indexOf_some (i := i) (by omega)]; simp only [actionOf_none h]

end Named

theorem scriptLengthOk_remove (ha : action = 0) : scriptLengthOk action body = body.isEmpty := by
  unfold scriptLengthOk; rw [actionOf_remove ha]

theorem scriptLengthOk_empty (ha : action = 1) : scriptLengthOk action [] = false := by
  unfold scriptLengthOk; rw [actionOf_define ha]

theorem scriptLengthOk_define (ha : action = 1) (n : Byte) (bytes : List Byte) :
    scriptLengthOk action (n :: bytes) = decide (bytes.length = 2 * n.toNat) := by
  unfold scriptLengthOk; rw [actionOf_define ha]; rfl

theorem scriptLengthOk_other (h : 2 ≤ action.toNat) : scriptLengthOk action body = true := by
  unfold scriptLengthOk; rw [actionOf_none h]

end Script

theorem carriedSteps_some {n : Byte} {bytes : List Byte} {steps : List ScriptStep} (h : stepsOf bytes = some steps)
    (ok : scriptOk steps = true) : carriedSteps (n :: bytes) = some steps := by
  unfold carriedSteps; rw [List.drop_one, List.tail_cons, h]; exact if_pos ok

theorem carriedSteps_none {n : Byte} {bytes : List Byte} (h : ∀ steps, stepsOf bytes = some steps → scriptOk steps = false) :
    carriedSteps (n :: bytes) = none := by
  unfold carriedSteps; rw [List.drop_one, List.tail_cons]; split
  · next steps e => simp [h steps e]
  · rfl

/-! ## The heads take a new library generation -/

/-- The record of a head that is told of a new library generation (R84 step 3, R123). -/
def reloadedRecord (r : Head) : Head :=
  if r.state = .serving then { r with state := .loading, loaded := [], testPending := false } else { r with loaded := [] }

theorem reloadedRecord_keeps (r : Head) :
    (reloadedRecord r).abilities = r.abilities ∧ (reloadedRecord r).faultMask = r.faultMask
      ∧ (reloadedRecord r).confirmed = r.confirmed := by
  unfold reloadedRecord; split <;> exact ⟨rfl, rfl, rfl⟩

/-- The heads of a list have been told of a new library generation, one after another. -/
structure Reloaded (hs : List HeadId) (w t : State) : Prop where
  frame : ∃ r d q l, t = { w with
    heads := { w.heads with records := r }, selector := { w.selector with desired := d }, queue := q, link := l }
  heads : ∀ k, headOf t k = if k ∈ hs then reloadedRecord (headOf w k) else headOf w k
  desired : ∀ k, desiredOf t k =
    if k ∈ hs ∧ (headOf w k).state = .serving then some (displayFor w k) else desiredOf w k
  queue : t.queue =
    ((hs.filter fun h => decide ((headOf w h).state = .serving)).filter fun h => desiredOf w h != some (displayFor w h)).foldl
      (fun q h => queueDisplay h (headOf w h).confirmed (displayFor w h) q) w.queue
  link : t.link =
    offerAll ((hs.filter fun h => decide ((headOf w h).state = .serving) && (headOf w h).testPending).map fun h => .test h none)
      w.link

/-- A display depends on the abilities and the fault mask of its head alone among the head's record (R74, R78). -/
theorem displayFor_congr {w t : State} {k : HeadId}
    (frame : ∃ r d q l, t = { w with
      heads := { w.heads with records := r }, selector := { w.selector with desired := d }, queue := q, link := l })
    (abilities : (headOf t k).abilities = (headOf w k).abilities) (mask : (headOf t k).faultMask = (headOf w k).faultMask) :
    displayFor t k = displayFor w k := by
  obtain ⟨r, d, q, l, rfl⟩ := frame
  have a : (look r k).abilities = (headOf w k).abilities := abilities
  have m : (look r k).faultMask = (headOf w k).faultMask := mask
  have arrow (route : Route) : arrowFor { w with
      heads := { w.heads with records := r }, selector := { w.selector with desired := d }, queue := q, link := l } k route
      = arrowFor w k route := by
    unfold arrowFor announcedArrows; simp only [headOf, a, m] at *; rfl
  have script (kind : DisplayKind) : scriptFor { w with
      heads := { w.heads with records := r }, selector := { w.selector with desired := d }, queue := q, link := l } k kind
      = scriptFor w k kind := by
    unfold scriptFor capacityOf; simp only [headOf, a] at *; rfl
  unfold displayFor; simp only [arrow, script]; rfl

namespace Reloaded

theorem display {hs : List HeadId} {w t : State} (h : Reloaded hs w t) (k : HeadId) : displayFor t k = displayFor w k := by
  obtain ⟨abilities, mask, -⟩ := reloadedRecord_keeps (headOf w k)
  refine displayFor_congr h.frame ?_ ?_
  · rw [h.heads]; split
    · exact abilities
    · rfl
  · rw [h.heads]; split
    · exact mask
    · rfl

theorem nil (w : State) : Reloaded [] w w := ⟨⟨_, _, _, _, rfl⟩, by simp, by simp, rfl, rfl⟩

theorem append {as bs : List HeadId} {w t u : State} (h : Reloaded as w t) (k : Reloaded bs t u) (apart : List.Disjoint as bs) :
    Reloaded (as ++ bs) w u := by
  have later {b : HeadId} (m : b ∈ bs) : headOf t b = headOf w b ∧ desiredOf t b = desiredOf w b := by
    have n : b ∉ as := fun n => apart n m
    exact ⟨by rw [h.heads, if_neg n], by rw [h.desired, if_neg (fun e => n e.1)]⟩
  have display := h.display
  refine ⟨?_, fun b => ?_, fun b => ?_, ?_, ?_⟩
  · obtain ⟨_, _, _, _, rfl⟩ := h.frame
    obtain ⟨_, _, _, _, rfl⟩ := k.frame
    exact ⟨_, _, _, _, rfl⟩
  · rw [k.heads]
    by_cases m : b ∈ bs
    · simp [m, (later m).1]
    · simp [m, h.heads]
  · rw [k.desired, display]
    by_cases m : b ∈ bs
    · simp [m, (later m).1, (later m).2]
    · simp [m, h.desired]
  · have serving : bs.filter (fun b => decide ((headOf t b).state = .serving))
        = bs.filter fun b => decide ((headOf w b).state = .serving) := List.filter_congr fun b m => by rw [(later m).1]
    have new : (bs.filter fun b => decide ((headOf w b).state = .serving)).filter (fun b => desiredOf t b != some (displayFor t b))
        = (bs.filter fun b => decide ((headOf w b).state = .serving)).filter fun b => desiredOf w b != some (displayFor w b) :=
      List.filter_congr fun b m => by rw [(later (List.mem_of_mem_filter m)).2, display]
    rw [k.queue, serving, new, h.queue, List.filter_append, List.filter_append, List.foldl_append]
    refine List.foldl_ext _ _ _ fun q b m => ?_
    rw [(later (List.mem_of_mem_filter (List.mem_of_mem_filter m))).1, display]
  · have tests : bs.filter (fun b => decide ((headOf t b).state = .serving) && (headOf t b).testPending)
        = bs.filter fun b => decide ((headOf w b).state = .serving) && (headOf w b).testPending :=
      List.filter_congr fun b m => by rw [(later m).1]
    rw [k.link, tests, h.link, List.filter_append, List.map_append, offerAll_append]

end Reloaded

theorem enterLoading_eq (h : HeadId) (s : State) :
    enterLoading h s
      = { s with
          heads := { s.heads with
            records := store s.heads.records h { headOf s h with state := .loading, loaded := [], testPending := false } }
          link := offerAll (testNotices s h) s.link } := by
  unfold enterLoading; rw [endTest_eq]
  unfold setHead
  simp only [headOf, look_store_same, store_store]

theorem reloadHead_serving {h : HeadId} {s : State} (e : (headOf s h).state = .serving) : Reloaded [h] s (reloadHead h s) := by
  have entered := enterLoading_eq h s
  have record (k : HeadId) : headOf (enterLoading h s) k = if h = k then reloadedRecord (headOf s h) else headOf s k := by
    rw [entered, reloadedRecord, if_pos e]; exact look_store ..
  have display (k : HeadId) : displayFor (enterLoading h s) k = displayFor s k := by
    refine displayFor_congr ⟨_, _, _, _, entered⟩ ?_ ?_
    all_goals
      rw [record]; split
      · next n => subst n; simp [reloadedRecord_keeps]
      · rfl
  obtain ⟨d, q, frame⟩ := refreshHead_frame h (enterLoading h s)
  have shown (k : HeadId) : displayFor (refreshHead h (enterLoading h s)) k = displayFor s k := by
    rw [← display k, frame]; rfl
  have kept (k : HeadId) : headOf (refreshHead h (enterLoading h s)) k = headOf (enterLoading h s) k := by rw [frame]; rfl
  obtain ⟨wants, takes⟩ := refreshHead_refreshed h (enterLoading h s)
  have same : desiredOf (enterLoading h s) h = desiredOf s h := by rw [entered]; rfl
  have before : (enterLoading h s).queue = s.queue := by rw [entered]
  have confirmed : (headOf (enterLoading h s) h).confirmed = (headOf s h).confirmed := by
    rw [record, if_pos rfl]; exact (reloadedRecord_keeps _).2.2
  unfold reloadHead; rw [if_pos e]
  refine ⟨?_, fun k => ?_, fun k => ?_, ?_, ?_⟩
  · rw [frame, entered]; exact ⟨_, _, _, _, rfl⟩
  · rw [kept, record]
    by_cases n : h = k
    · subst n; simp
    · simp [n, Ne.symm n]
  · by_cases n : h = k
    · subst n; simp [wants, shown, e]
    · rw [desiredOf_refreshHead_ne _ n, if_neg (fun m => n (List.mem_singleton.mp m.1).symm), entered]; rfl
  · rw [takes, same, before, shown, kept, confirmed]
    by_cases new : desiredOf s h = some (displayFor s h) <;> simp [e, new]
  · have link : (refreshHead h (enterLoading h s)).link = offerAll (testNotices s h) s.link := by rw [frame, entered]
    rw [link, testNotices]
    by_cases p : (headOf s h).testPending = true <;> simp [e, p]

theorem reloadHead_other {h : HeadId} {s : State} (e : (headOf s h).state ≠ .serving) : Reloaded [h] s (reloadHead h s) := by
  unfold reloadHead; rw [if_neg e]
  refine ⟨⟨_, _, _, _, rfl⟩, fun k => ?_, fun k => ?_, ?_, ?_⟩
  · by_cases n : h = k
    · subst n; simp [reloadedRecord, e]
    · rw [headOf_setHead_ne _ _ n, if_neg (fun m => n (List.mem_singleton.mp m).symm)]
  · rw [if_neg]
    · rfl
    · rintro ⟨m, serving⟩; rw [List.mem_singleton.mp m] at serving; exact e serving
  · simp [e]
  · simp [e]; rfl

theorem foldl_reloadHead (hs : List HeadId) (once : hs.Nodup) (s : State) :
    Reloaded hs s (hs.foldl (fun s h => reloadHead h s) s) := by
  induction hs generalizing s with
  | nil => exact .nil s
  | cons h hs ih =>
    obtain ⟨new, once⟩ := List.nodup_cons.mp once
    have one : Reloaded [h] s (reloadHead h s) := by
      by_cases e : (headOf s h).state = .serving
      · exact reloadHead_serving e
      · exact reloadHead_other e
    exact one.append (ih once _) fun k a b => new (List.mem_singleton.mp a ▸ b)

/-! ## SET SCRIPT and SET KIND MAP accepted -/

/-- The heads that a new library takes out of SERVING, then the other displayed ones (R84). -/
def retold (s : State) : List HeadId :=
  ((List.finRange 64).filter fun h => decide ((headOf s h).state = .serving))
    ++ (displayed s).filter fun h => decide ((headOf s h).state ≠ .serving)

/-- All heads told of a new library and every display recomputed: the queue takes the displays of the heads that were SERVING
first (R84, R90, R123). -/
theorem recomputed_reloaded {w u : State} (h : Reloaded (List.finRange 64) w u) :
    (∀ k, headOf (recomputeAll u) k = reloadedRecord (headOf w k))
    ∧ (∀ k, desiredOf (recomputeAll u) k =
        if (desiredOf w k).isSome ∨ (headOf w k).state = .serving then some (displayFor (recomputeAll u) k) else none)
    ∧ (recomputeAll u).queue = queueTakes (retold w) w (recomputeAll u) := by
  obtain ⟨d, q, frame⟩ := recomputeAll_frame u
  obtain ⟨wants, takes⟩ := recomputeAll_recomputed u
  have display (k : HeadId) : displayFor (recomputeAll u) k = displayFor w k := by
    rw [show displayFor (recomputeAll u) k = displayFor u k by rw [frame]; rfl, h.display]
  have record (k : HeadId) : headOf (recomputeAll u) k = reloadedRecord (headOf w k) := by
    rw [show headOf (recomputeAll u) k = headOf u k by rw [frame]; rfl, h.heads, if_pos (List.mem_finRange k)]
  have confirmed (k : HeadId) : (headOf (recomputeAll u) k).confirmed = (headOf w k).confirmed := by
    rw [record]; exact (reloadedRecord_keeps _).2.2
  have desired (k : HeadId) : desiredOf u k = if (headOf w k).state = .serving then some (displayFor w k) else desiredOf w k := by
    rw [h.desired]; simp
  refine ⟨record, fun k => ?_, ?_⟩
  · rw [wants, desired]
    by_cases serving : (headOf w k).state = .serving <;> simp [serving]
  · have others : (displayed u).filter (fun k => desiredOf u k != some (displayFor w k))
        = ((displayed w).filter fun k => decide ((headOf w k).state ≠ .serving)).filter fun k =>
            desiredOf w k != some (displayFor w k) := by
      unfold displayed
      rw [List.filter_filter, List.filter_filter, List.filter_filter]
      refine List.filter_congr fun k _ => ?_
      rw [desired]
      by_cases serving : (headOf w k).state = .serving <;> simp [serving, Bool.and_comm]
    rw [takes]
    simp only [queueTakes, retold, display, confirmed]
    rw [others, h.queue, List.filter_append, List.foldl_append]

/-- SET SCRIPT in its accepted case (R84). -/
theorem serves_editLibrary {i : Instr} {s : State} {f : PanelFrame} {act : State → Served} (n : Fin 12)
    (steps : Option (List ScriptStep)) (he : encodeRequest i = some f) (hx : exec i s = .next (takeRequest f act s))
    (hr : Ready s) (hm : s.mode = .setup) (ha : act (begun s) = taken .done (editLibrary n steps (begun s))) :
    let w : State :=
      { s with
        map := { s.map with validated := false }
        selector := { s.selector with
          library := store s.selector.library n steps, generation := s.selector.generation + 1 } }
    let tests : List Notice :=
      ((List.finRange 64).filter fun h => decide ((headOf s h).state = .serving) && (headOf s h).testPending).map fun h =>
        .test h none
    Serves i s .done [] (exitNotices everyExit w ++ tests) fun t =>
      (∀ h, headOf t h =
          if (headOf s h).state = .serving then { headOf s h with state := .loading, loaded := [], testPending := false }
          else { headOf s h with loaded := [] })
      ∧ (∀ h,
          desiredOf t h =
            if (desiredOf s h).isSome ∨ (headOf s h).state = .serving then some (displayFor t h) else none)
      ∧ t.queue =
        queueTakes
          (((List.finRange 64).filter fun h => decide ((headOf s h).state = .serving))
            ++ (displayed s).filter fun h => decide ((headOf s h).state ≠ .serving)) s t
      ∧ { withDisplays s t with link := s.link, heads := { t.heads with records := s.heads.records } }
        = reevaluated everyExit w := by
  intro w tests
  have resting : routing (writeScript n steps (begun s)) = false := by simp [routing, writeScript, begun, hm]
  have accepted : acceptMap (writeScript n steps (begun s))
      = { reevaluated everyExit w with link := servingLink (exitNotices everyExit w) s } := acceptMap_written [] resting rfl
  have all : Reloaded (List.finRange 64) { reevaluated everyExit w with link := servingLink (exitNotices everyExit w) s }
      (forEach 64 reloadHead (acceptMap (writeScript n steps (begun s)))) := by
    rw [accepted]; exact foldl_reloadHead _ (List.nodup_finRange 64) _
  have edited : editLibrary n steps (begun s)
      = recomputeAll (forEach 64 reloadHead (acceptMap (writeScript n steps (begun s)))) := rfl
  rw [edited] at ha
  generalize forEach 64 reloadHead (acceptMap (writeScript n steps (begun s))) = u at all ha
  obtain ⟨record, wants, takes⟩ := recomputed_reloaded all
  obtain ⟨d, q, shown⟩ := recomputeAll_frame u
  obtain ⟨r, d', q', l', told⟩ := all.frame
  generalize recomputeAll u = t at *
  refine serves_by he hx hr ha rfl (by simp [taken]) ?_ fun l => ⟨record, wants, takes, ?_⟩
  · dsimp only [taken]
    rw [show t.link = u.link by rw [shown], all.link, servingLink_append]; rfl
  · dsimp only [taken]; rw [shown, told]; rfl

theorem setKindMap_badIndex {entry script : Byte} {s : State} (hm : s.mode = .setup)
    (h : 10 ≤ entry.toNat ∨ 13 ≤ script.toNat) : setKindMap entry script s = refuse .badIndex s := by
  unfold setKindMap; rw [inSetup_taken hm]
  split
  · next hi hn =>
    rcases h with h | h
    · rw [indexOf_none.mpr h] at hi; cases hi
    · rw [indexOf_none.mpr h] at hn; cases hn
  · rfl

theorem setKindMap_taken {entry script : Byte} {s : State} (hm : s.mode = .setup) {i : Fin 10} {n : ScriptId}
    (hi : entry.toNat = i.val) (hn : script.toNat = n.val) :
    setKindMap entry script s = taken .done (recomputeAll (acceptMap (writeKindMap i n s))) := by
  unfold setKindMap; rw [inSetup_taken hm]; simp only [indexOf_some hi, indexOf_some hn]

/-- SET KIND MAP in its accepted case (R77, R80). -/
theorem serves_writeKindMap {i : Instr} {s : State} {f : PanelFrame} {act : State → Served} (k : Fin 10) (n : ScriptId)
    (he : encodeRequest i = some f) (hx : exec i s = .next (takeRequest f act s)) (hr : Ready s) (hm : s.mode = .setup)
    (ha : act (begun s) = taken .done (recomputeAll (acceptMap (writeKindMap k n (begun s))))) :
    let u : State :=
      { s with
        map := { s.map with validated := false }
        selector := { s.selector with kindMap := store s.selector.kindMap k n } }
    Serves i s .done [] (exitNotices everyExit u) fun t =>
      Recomputed s t ∧ { withDisplays s t with link := s.link } = reevaluated everyExit u := by
  intro u
  have resting : routing (writeKindMap k n (begun s)) = false := by simp [routing, writeKindMap, begun, hm]
  have accepted : acceptMap (writeKindMap k n (begun s))
      = { reevaluated everyExit u with link := servingLink (exitNotices everyExit u) s } := acceptMap_written [] resting rfl
  rw [accepted] at ha
  have again := recomputeAll_recomputed { reevaluated everyExit u with link := servingLink (exitNotices everyExit u) s }
  obtain ⟨d, q, shown⟩ := recomputeAll_frame { reevaluated everyExit u with link := servingLink (exitNotices everyExit u) s }
  generalize recomputeAll { reevaluated everyExit u with link := servingLink (exitNotices everyExit u) s } = t at *
  refine serves_by he hx hr ha rfl (by simp [taken]) ?_ fun l => ⟨again, ?_⟩
  · dsimp only [taken]; rw [shown]
  · dsimp only [taken]; rw [shown]; rfl

end Sys2Proof.Machine

namespace Sys2Proof.Proofs

open Sys2Proof Sys2Proof.Machine

/-- Settles O27: the checks of SET SCRIPT in their order, the script check step by step, and the accepted requests. -/
theorem setScriptAndKindMap : Obligations.SetScriptAndKindMap := by
  unfold Obligations.SetScriptAndKindMap
  refine ⟨fun tag action script body s hr hm => ?_, scriptOk_iff, fun tag entry script s hr hm => ?_⟩
  · have hb := begun_setup hm
    have hx := exec_setScript tag action script body s
    have short (h : scriptLengthOk action body = false) : Refuses (.setScript tag action script body) s .badLength :=
      refuses_by rfl hx hr (setScript_badLength h)
    have request (h : scriptLengthOk action body = true) :
        setScript action script body (begun s) = scriptRequest action script body (begun s) := setScript_request hb h
    refine ⟨fun ha hne => ?_, fun ha h => ?_, fun n steps ha h bad => ?_, fun h ok => ?_, fun i hi => ⟨fun ha h => ?_,
      fun n bytes steps ha h len hs ok => ?_, fun n bytes ha h len bad => ?_, fun ha => ?_⟩⟩
    · exact short (by rw [scriptLengthOk_remove ha]; exact List.isEmpty_eq_false_iff.mpr hne)
    · subst h; exact short (scriptLengthOk_empty ha)
    · subst h; exact short (by rw [scriptLengthOk_define ha]; exact decide_eq_false bad)
    · exact refuses_by rfl hx hr ((request ok).trans (scriptRequest_badIndex h))
    · subst h
      exact serves_editLibrary i none rfl hx hr hm ((request (scriptLengthOk_remove ha)).trans (scriptRequest_remove hi ha))
    · subst h
      have fits : scriptLengthOk action (n :: bytes) = true := by rw [scriptLengthOk_define ha]; exact decide_eq_true len
      exact serves_editLibrary i (some steps) rfl hx hr hm
        ((request fits).trans (scriptRequest_define hi ha (carriedSteps_some hs ok)))
    · subst h
      have fits : scriptLengthOk action (n :: bytes) = true := by rw [scriptLengthOk_define ha]; exact decide_eq_true len
      exact refuses_by rfl hx hr ((request fits).trans (scriptRequest_badSteps hi ha (carriedSteps_none bad)))
    · exact refuses_by rfl hx hr ((request (scriptLengthOk_other ha)).trans (scriptRequest_badAction hi ha))
  · have hb := begun_setup hm
    have hx := exec_setKindMap tag entry script s
    refine ⟨fun h => refuses_by rfl hx hr (setKindMap_badIndex hb h), fun i n hi hn => ?_⟩
    exact serves_writeKindMap i n rfl hx hr hm (setKindMap_taken hb hi hn)

end Sys2Proof.Proofs
end

section
/-! Changes of mode: ARM, the end of a validation and DISARM (R14 to R20, R151, R153). -/

namespace Sys2Proof.Machine

/-! ## Recomputation at the end of a change -/

/-- What a recomputation does is counted from the displays and the queue alone. -/
theorem recomputed_from {s u t : State} (desired : u.selector.desired = s.selector.desired) (queue : u.queue = s.queue)
    (h : Recomputed u t) : Recomputed s t := by
  unfold Recomputed queueTakes displayed desiredOf at h ⊢
  rw [desired, queue] at h; exact h

/-- What a recomputation leaves of the part `u` before it, but for the link. -/
def ShownFrom (u t : State) : Prop :=
  ∃ d q l, t = { u with selector := { u.selector with desired := d }, queue := q, link := l }

theorem recomputeAll_shown (u : State) (l : Link) : ShownFrom u { recomputeAll u with link := l } := by
  obtain ⟨d, q, e⟩ := recomputeAll_frame u
  exact ⟨d, q, l, by rw [e]⟩

theorem recomputeAll_link (u : State) : (recomputeAll u).link = u.link := by
  obtain ⟨d, q, e⟩ := recomputeAll_frame u
  rw [e]

/-- A request whose last act is a recomputation of the displays. -/
theorem serves_recomputed {i : Instr} {s u : State} {f : PanelFrame} {act : State → Served} {l : Link}
    {P : State → Prop} (he : encodeRequest i = some f) (hx : exec i s = .next (takeRequest f act s)) (hr : Ready s)
    (ha : act (begun s) = taken .done (recomputeAll u)) (desired : u.selector.desired = s.selector.desired)
    (queue : u.queue = s.queue) (link : u.link = l) (hP : ∀ t, ShownFrom u t → Recomputed s t → P t) :
    ServesFrom i s .done [] l P := by
  refine servesFrom_by he hx hr ha rfl (by simp [taken]) ((recomputeAll_link u).trans link) fun l => ?_
  refine hP _ (recomputeAll_shown u l) ?_
  have shown := recomputed_from desired queue (recomputeAll_recomputed u)
  dsimp only [taken]
  generalize recomputeAll u = t at shown ⊢
  exact shown

/-! ## ARM -/

theorem arm_setup {s : State} (hm : s.mode = .setup) :
    arm s = taken .done (recomputeAll (offer (.mode (some .setup) .validating .arm .none none)
      { setResult .running s with mode := .validating })) := by
  unfold arm; rw [if_pos hm]
  unfold changeMode; rw [setResult_mode, hm]; rfl

theorem arm_refused {s : State} (hm : s.mode ≠ .setup) : arm s = refuse .wrongMode s := if_neg hm

/-! ## Passes over a table -/

/-- A pass over the records of one table, each rewritten from its own value and from the rest of the state alone. -/
theorem forEach_rewrites {σ ρ : Type} {n : Nat} (get : σ → Vector ρ n) (put : Vector ρ n → σ → σ) (new : σ → Fin n → ρ)
    (f : Fin n → σ → σ) (put_put : ∀ v w t, put v (put w t) = put v t) (get_put : ∀ v t, get (put v t) = v)
    (put_get : ∀ t, put (get t) t = t) (step : ∀ i t, f i t = put (store (get t) i (new t i)) t)
    (own : ∀ i t v, look v i = look (get t) i → new (put v t) i = new t i) (s : σ) :
    forEach n f s = put (tabulate n (new s)) s := by
  obtain ⟨v, frame⟩ : ∃ v, forEach n f s = put v s :=
    forEach_induct (P := fun t => ∃ v, t = put v s) f s ⟨get s, (put_get s).symm⟩ fun i t ⟨v, e⟩ =>
      ⟨store (get t) i (new t i), by rw [step, e, put_put]⟩
  have column (i : Fin n) : look v i = new s i := by
    obtain ⟨t, before, after⟩ := forEach_read f (fun t i => (put (get s) t, look (get t) i))
      (fun i j t ne => by rw [step, put_put, get_put, look_store_ne _ _ ne]) s i
    obtain ⟨rest, record⟩ := Prod.mk.inj before
    have read := (Prod.mk.inj after).2
    have back : put (get t) s = t := by rw [← put_put (get t) (get s) s, ← rest, put_put, put_get]
    have same := own i s (get t) record
    rw [back] at same
    rw [frame, get_put, step, get_put, look_store_same] at read
    exact read.trans same
  rw [frame]
  exact congrArg (fun v => put v s) (table_ext fun i => by rw [column, look_tabulate])

/-! ## Entry into GUARD -/

/-- What the inputs of a run depend on of the zones is their states (R49). -/
theorem takeSnapshot_congr {s t : State} (map : t.map = s.map) (exits : t.exits = s.exits) (timing : t.timing = s.timing)
    (zones : ∀ z, (zoneOf t z).state = (zoneOf s z).state) : takeSnapshot t = takeSnapshot s := by
  have aisles : snapAisle t = snapAisle s := by
    funext x; unfold snapAisle hazardOf; simp only [map, zones]
  have sources : sourcePair t = sourcePair s := by
    funext e; unfold sourcePair exitOf; simp only [map, exits]
  unfold takeSnapshot; rw [aisles, sources, timing]

/-- The record of a zone after entry into GUARD (R30). -/
def guardedZone (s : State) (z : ZoneId) : ZoneRt :=
  if (look s.map.zones z).defined && (look s.map.zones z).supervised && watched (zoneOf s z).state
      && (zoneOf s z).silence.isNone then
    { zoneOf s z with silence := some (s.now + 1000 * s.timing.silenceTime) }
  else zoneOf s z

theorem guardedZone_state (s : State) (z : ZoneId) : (guardedZone s z).state = (zoneOf s z).state := by
  unfold guardedZone; split <;> rfl

theorem guardSilence_eq (z : ZoneId) (s : State) : guardSilence z s = setZoneRt z (guardedZone s z) s := by
  unfold guardSilence guardedZone startSilence seconds supervised
  split
  · rfl
  · exact (congrArg (fun v => { s with zones := v }) (store_look s.zones z)).symm

theorem guardSilences_eq (s : State) : guardSilences s = { s with zones := tabulate 64 (guardedZone s) } :=
  forEach_rewrites State.zones (fun v s => { s with zones := v }) guardedZone guardSilence (fun _ _ _ => rfl) (fun _ _ => rfl)
    (fun _ => rfl) guardSilence_eq (fun z t v e => by unfold guardedZone zoneOf; dsimp only; rw [e]) s

/-- The requests for ALARM that entry into GUARD makes (R34). -/
def entryRequests (s : State) : List ZoneId :=
  if s.timing.autoAlarm then (firstIndex 64 (zoneInSmoke s)).toList else []

theorem requestOnEntry_eq {s : State} (hm : s.mode = .guard) :
    requestOnEntry s = { s with alarmRequests := s.alarmRequests ++ entryRequests s } := by
  unfold requestOnEntry entryRequests
  split
  · next z e =>
    unfold requestAlarm
    by_cases a : s.timing.autoAlarm = true
    · rw [if_pos ⟨hm, a⟩, if_pos a, e]; rfl
    · rw [if_neg (fun h => a h.2), if_neg a, List.append_nil]
  · next e => rw [e]; simp

theorem enterGuard_eq {s : State} (hm : s.mode = .guard) :
    enterGuard s = { s with
      zones := tabulate 64 (guardedZone s), alarmRequests := s.alarmRequests ++ entryRequests s } := by
  have request := requestOnEntry_eq (s := { s with zones := tabulate 64 (guardedZone s) }) hm
  have smoke : zoneInSmoke { s with zones := tabulate 64 (guardedZone s) } = zoneInSmoke s := by
    funext z
    unfold zoneInSmoke zoneOf
    rw [look_tabulate, guardedZone_state]; rfl
  unfold enterGuard
  rw [guardSilences_eq, request]
  unfold entryRequests; rw [smoke]

/-! ## The end of a validation -/

/-- The runtime fields of an exit with its bias loaded (R17). -/
def loadedExit (s : State) (e : ExitId) : ExitRt :=
  if (look s.map.exits e).defined then { exitOf s e with bias := (look s.map.exits e).baseBias } else exitOf s e

theorem loadBias_eq (e : ExitId) (s : State) : loadBias e s = setExitRt e (loadedExit s e) s := by
  unfold loadBias loadedExit; split
  · rfl
  · exact (congrArg (fun v => { s with exits := v }) (store_look s.exits e)).symm

theorem loadBiases_eq (s : State) : forEach 24 loadBias s = { s with exits := tabulate 24 (loadedExit s) } :=
  forEach_rewrites State.exits (fun v s => { s with exits := v }) loadedExit loadBias (fun _ _ _ => rfl) (fun _ _ => rfl)
    (fun _ => rfl) loadBias_eq (fun z t v e => by unfold loadedExit exitOf; dsimp only; rw [e]) s

/-- The part as it enters GUARD after a validation, before the run starts (R17). -/
def passed (s : State) : State :=
  { s with
    mode := .guard
    map := { s.map with validated := true, lastValidation := .passed }
    exits := tabulate 24 (loadedExit s)
    link := offerLink (.mode (some .validating) .guard .passed .passed none) s.link }

theorem passValidation_eq {s : State} (hm : s.mode = .validating) :
    passValidation s = recomputeAll (enterGuard (startRun (passed s))) := by
  have loaded := loadBiases_eq (setResult .passed { s with map := { s.map with validated := true } })
  unfold passValidation; dsimp only; rw [loaded]
  unfold changeMode; rw [setResult_mode, hm]; rfl

/-- The part as it returns to SETUP after a validation that fails (R18). -/
def failed (f : Failure) (s : State) : State :=
  { s with
    mode := .setup
    map := { s.map with validated := false, lastValidation := .failed f }
    link := offerLink (.mode (some .validating) .setup .failed (.failed f) none) s.link }

theorem failValidation_eq {s : State} (f : Failure) (hm : s.mode = .validating) :
    failValidation f s = recomputeAll (failed f s) := by
  unfold failValidation changeMode; rw [setResult_mode, hm]; rfl

theorem completeValidation_passed {s : State} (hm : s.mode = .validating) (hv : validate s = none) :
    completeValidation s = passValidation s := by unfold completeValidation; rw [if_pos hm, hv]

theorem completeValidation_failed {s : State} {f : Failure} (hm : s.mode = .validating) (hv : validate s = some f) :
    completeValidation s = failValidation f s := by unfold completeValidation; rw [if_pos hm, hv]

theorem completeValidation_other {s : State} (hm : s.mode ≠ .validating) : completeValidation s = s := if_neg hm

end Sys2Proof.Machine

namespace Sys2Proof.Proofs

open Sys2Proof Sys2Proof.Machine

/-- Settles O12: ARM writes the result and the mode and recomputes the displays. -/
theorem armStartsValidation : Obligations.ArmStartsValidation := by
  unfold Obligations.ArmStartsValidation
  intro tag s hr
  refine ⟨fun hm => ?_, fun hm => refuses_by rfl (exec_arm tag s) hr (arm_refused hm)⟩
  refine serves_recomputed rfl (exec_arm tag s) hr (arm_setup (begun_setup hm)) rfl rfl rfl ?_
  rintro t ⟨d, q, l, rfl⟩ again
  exact ⟨rfl, rfl, again, rfl⟩

/-- Settles O13: the two ends of a validation in closed form. -/
theorem validationEnds : Obligations.ValidationEnds := by
  unfold Obligations.ValidationEnds
  refine ⟨fun s hm hv => ?_, fun s => ⟨fun f hm hv => ?_, fun hm => ?_⟩⟩
  · have done := (completeValidation_passed hm hv).trans (passValidation_eq hm)
    have guarded := enterGuard_eq (s := startRun (passed s)) rfl
    have again : Recomputed s (recomputeAll (enterGuard (startRun (passed s)))) :=
      recomputed_from (u := enterGuard (startRun (passed s))) (by rw [guarded]; rfl) (by rw [guarded]; rfl)
        (recomputeAll_recomputed _)
    obtain ⟨d, q, e⟩ := recomputeAll_frame (enterGuard (startRun (passed s)))
    refine ⟨_, (exec_validationComplete s).trans (congrArg _ done), ?_⟩
    generalize recomputeAll (enterGuard (startRun (passed s))) = t at e again
    rw [guarded] at e
    have zones (z : ZoneId) : zoneOf t z = guardedZone s z := by
      rw [e]; exact (look_tabulate _ z).trans rfl
    have inputs : takeSnapshot t = takeSnapshot (passed s) :=
      takeSnapshot_congr (by rw [e]; rfl) (by rw [e]; rfl) (by rw [e]; rfl) fun z => by
        rw [zones]; exact guardedZone_state s z
    refine ⟨by rw [e]; rfl, by rw [e]; rfl, fun x => ?_, ?_, ⟨fun z => ?_, ?_⟩, again, by rw [e]; rfl, ?_⟩
    · rw [e]; exact look_tabulate ..
    · exact startsRun_of (w := passed s) (by rw [e]) rfl inputs (by rw [e]; rfl)
    · rw [zones]; rfl
    · rw [e]; rfl
    · subst e; rfl
  · have done : completeValidation s = recomputeAll (failed f s) := by
      rw [completeValidation_failed hm hv, failValidation_eq f hm]
    have again : Recomputed s (recomputeAll (failed f s)) := recomputed_from (u := failed f s) rfl rfl (recomputeAll_recomputed _)
    obtain ⟨d, q, e⟩ := recomputeAll_frame (failed f s)
    refine ⟨_, (exec_validationComplete s).trans (congrArg _ done), ?_⟩
    generalize recomputeAll (failed f s) = t at e again
    subst e
    exact ⟨rfl, rfl, again, rfl, rfl⟩
  · exact (exec_validationComplete s).trans (congrArg _ (completeValidation_other hm))

end Sys2Proof.Proofs
end

section
/-! DISARM (R19, R68, R153). -/

namespace Sys2Proof.Machine

/-! ## Displays in SETUP -/

theorem kindFor_setup (r : Route) : kindFor .setup r = .standby := if_pos (.inl rfl)

/-- In SETUP a display follows neither the routes nor the link (R72). -/
theorem displayFor_setup {s : State} (hm : s.mode = .setup) (g : Engine) (l : Link) (h : HeadId) :
    displayFor { s with engine := g, link := l } h = displayFor s h := by
  have kind (r : Route) : kindFor s.mode r = .standby := by rw [hm]; exact kindFor_setup r
  unfold displayFor
  dsimp only
  rw [kind, kind]; rfl

theorem recomputed_setup {s t : State} (hm : t.mode = .setup) (h : Recomputed s t) (g : Engine) (l : Link) :
    Recomputed s { t with engine := g, link := l } := by
  obtain ⟨wants, takes⟩ := h
  refine ⟨fun k => ?_, ?_⟩
  · rw [displayFor_setup hm]; exact wants k
  · unfold queueTakes at takes ⊢
    simp only [displayFor_setup hm]; exact takes

/-- A part whose displays are those of its inputs is left by a recomputation as it is (R81). -/
theorem recomputeAll_current {s : State} (h : ∀ k, (desiredOf s k).isSome → desiredOf s k = some (displayFor s k)) :
    recomputeAll s = s := by
  refine forEach_induct (P := fun t => t = s) _ s rfl fun k t e => ?_
  subst e
  split
  · next some? => unfold refreshHead; exact if_pos (h k some?)
  · rfl

theorem recomputeAll_again {s t : State} (h : Recomputed s t) : recomputeAll t = t := by
  refine recomputeAll_current fun k some? => ?_
  have wants := h.1 k
  split at wants
  · exact wants
  · rw [wants] at some?; cases some?

/-! ## DISARM -/

theorem disarmEngine_running {s : State} (h : s.engine.run ≠ .publishing) : disarmEngine s = clearEngine s := by
  unfold disarmEngine; split
  · next e _ => exact absurd e h
  · rfl

theorem disarmEngine_publishing {s : State} {table : RouteTable} (h : s.engine.run = .publishing)
    (ht : s.engine.newTable = some table) : disarmEngine s = clearEngine (publishTable table s) := by
  unfold disarmEngine; rw [h, ht]

theorem clearEngine_eq (s : State) : clearEngine s = { s with engine := restingEngine s.map } := rfl

/-- The part that DISARM brings from GUARD to SETUP, before its engine is told (R151). -/
def disarming (s : State) : State :=
  offer (.mode (some .guard) .setup .disarm .none none) { s with mode := .setup }

theorem disarm_guard {s : State} (hm : s.mode = .guard) :
    disarm s = taken .done (recomputeAll (disarmEngine (disarming s))) := by
  unfold disarm disarming changeMode; rw [hm]

theorem disarm_validating {s : State} (hm : s.mode = .validating) :
    disarm s = taken .done (recomputeAll (offer (.mode (some .validating) .setup .cancelled .cancelled none)
      { setResult .cancelled s with mode := .setup })) := by
  unfold disarm changeMode; rw [setResult_mode, hm]; rfl

theorem disarm_refused {s : State} (hm : s.mode = .setup ∨ s.mode = .alarm) : disarm s = refuse .wrongMode s := by
  unfold disarm
  rcases hm with hm | hm <;> rw [hm]

/-- A publication completed in SETUP leaves the displays that the mode gives, and the engine is put to rest after it
(R68). -/
theorem recomputed_published {s w : State} {table : RouteTable} (hm : w.mode = .setup)
    (desired : w.selector.desired = s.selector.desired) (queue : w.queue = s.queue) :
    ∃ d q, recomputeAll (clearEngine (publishTable table w))
        = { w with
            engine := restingEngine w.map, selector := { w.selector with desired := d }, queue := q
            link := offerLink (routesNotice (replaceTable (withTargets w.map table) w)
              (changedHeads (replaceTable (withTargets w.map table) w))) w.link }
      ∧ Recomputed s (recomputeAll (clearEngine (publishTable table w))) := by
  obtain ⟨d, q, e⟩ := recomputeAll_frame (replaceTable (withTargets w.map table) w)
  have shown : Recomputed s (recomputeAll (replaceTable (withTargets w.map table) w)) :=
    recomputed_from (u := replaceTable (withTargets w.map table) w) desired queue (recomputeAll_recomputed _)
  have rested : clearEngine (publishTable table w)
      = { recomputeAll (replaceTable (withTargets w.map table) w) with
          engine := restingEngine w.map
          link := offerLink (routesNotice (replaceTable (withTargets w.map table) w)
            (changedHeads (replaceTable (withTargets w.map table) w))) w.link } := by
    unfold publishTable
    dsimp only
    rw [e]; rfl
  have again := recomputed_setup (by rw [e]; exact hm) shown (restingEngine w.map)
    (offerLink (routesNotice (replaceTable (withTargets w.map table) w)
      (changedHeads (replaceTable (withTargets w.map table) w))) w.link)
  rw [← rested] at again
  rw [recomputeAll_again again]
  refine ⟨d, q, ?_, again⟩
  rw [rested, e]; rfl

end Sys2Proof.Machine

namespace Sys2Proof.Proofs

open Sys2Proof Sys2Proof.Machine

/-- Settles O15: DISARM by the mode it meets, and by whether a publication is in progress. -/
theorem disarmEffect : Obligations.DisarmEffect := by
  unfold Obligations.DisarmEffect
  intro tag s hr
  have hx := exec_disarm tag s
  refine ⟨fun hm idle => ?_, fun table hm publishing new => ?_, fun hm => ?_, fun hm => ?_⟩
  · have act : disarm (begun s) = taken .done (recomputeAll (clearEngine (disarming (begun s)))) :=
      (disarm_guard (s := begun s) hm).trans (by rw [disarmEngine_running (s := disarming (begun s)) idle])
    refine serves_recomputed rfl hx hr act rfl rfl rfl ?_
    rintro t ⟨d, q, l, rfl⟩ again
    exact ⟨rfl, rfl, again, rfl⟩
  · have act : disarm (begun s) = taken .done (recomputeAll (clearEngine (publishTable table (disarming (begun s))))) :=
      (disarm_guard (s := begun s) hm).trans
        (by rw [disarmEngine_publishing (s := disarming (begun s)) publishing new])
    obtain ⟨d, q, e, again⟩ := recomputed_published (s := s) (w := disarming (begun s)) (table := table) rfl rfl rfl
    generalize recomputeAll (clearEngine (publishTable table (disarming (begun s)))) = t at act e again
    refine serves_by rfl hx hr act rfl (by simp [taken]) (by rw [taken, e]; rfl) fun l => ⟨?_, ?_, again, ?_⟩
    all_goals dsimp only [taken]; rw [e]; rfl
  · refine serves_recomputed rfl hx hr (disarm_validating (s := begun s) hm) rfl rfl rfl ?_
    rintro t ⟨d, q, l, rfl⟩ again
    exact ⟨rfl, rfl, again, rfl⟩
  · exact refuses_by rfl hx hr (disarm_refused hm)

end Sys2Proof.Proofs
end

section
/-! RESTART (R158). -/

namespace Sys2Proof.Machine

/-! ## Exits -/

/-- The EXIT notice of an exit whose availability its RESTART values change (R39, R43). -/
def freshNotices (s : State) (e : ExitId) : List Notice :=
  if (look s.map.exits e).defined && ((freshExitRt s e).available != (exitOf s e).available) then
    [.exit e (freshExitRt s e).available .auto (freshExitRt s e).contact (exitZoneState s e)]
  else []

/-- The runtime fields of an exit after RESTART (R39). -/
def restartedExit (s : State) (e : ExitId) : ExitRt := if (look s.map.exits e).defined then freshExitRt s e else exitOf s e

theorem restartExit_eq (e : ExitId) (s : State) :
    restartExit e s
      = { s with exits := store s.exits e (restartedExit s e), link := offerAll (freshNotices s e) s.link } := by
  unfold restartExit restartedExit freshNotices
  by_cases d : (look s.map.exits e).defined = true
  · rw [if_pos d, if_pos d]
    have gives : availabilityOf (setExitRt e { freshExitRt s e with available := (exitOf s e).available } s) e
        = (freshExitRt s e).available := by
      unfold availabilityOf; rw [exitOf_setExitRt_same]; rfl
    unfold reevalExit
    simp only [gives, exitOf_setExitRt_same, setExitRt_map, d, true_and, Bool.true_and, bne_iff_ne]
    by_cases new : (freshExitRt s e).available = (exitOf s e).available
    · rw [if_neg (not_not.mpr new), if_neg (not_not.mpr new), ← new]; rfl
    · rw [if_pos new, if_pos new, exitNotice, exitOf_setExitRt_same]
      simp only [Bool.false_eq_true, if_false, setExitRt, offer, store_store]
      rfl
  · have same : store s.exits e (exitOf s e) = s.exits := store_look _ e
    rw [if_neg d, if_neg d, same]; simp [d]; rfl

theorem foldl_restartExit (es : List ExitId) (once : es.Nodup) (s : State) :
    ∃ x, es.foldl (fun s e => restartExit e s) s = { s with exits := x, link := offerAll (es.flatMap (freshNotices s)) s.link }
      ∧ ∀ k, look x k = if k ∈ es then restartedExit s k else exitOf s k := by
  induction es generalizing s with
  | nil => exact ⟨s.exits, rfl, fun k => (if_neg (List.not_mem_nil)).symm⟩
  | cons e es ih =>
    obtain ⟨new, once⟩ := List.nodup_cons.mp once
    obtain ⟨x, rest, column⟩ := ih once (restartExit e s)
    have one := restartExit_eq e s
    have other {k : ExitId} (n : e ≠ k) : exitOf (restartExit e s) k = exitOf s k := by
      rw [one]; exact look_store_ne _ _ n
    have fresh (k : ExitId) : freshExitRt (restartExit e s) k = freshExitRt s k := by rw [one]; rfl
    have map : (restartExit e s).map = s.map := by rw [one]
    have zone (k : ExitId) : exitZoneState (restartExit e s) k = exitZoneState s k := by rw [one]; rfl
    have later : es.flatMap (freshNotices (restartExit e s)) = es.flatMap (freshNotices s) := by
      refine List.flatMap_congr fun k m => ?_
      unfold freshNotices; rw [fresh, map, zone, other fun n => new (n ▸ m)]
    refine ⟨x, ?_, fun k => ?_⟩
    · rw [List.foldl_cons, rest, later, List.flatMap_cons, offerAll_append, one]
    · rw [column]
      by_cases n : e = k
      · subst n
        rw [if_neg new, if_pos (List.mem_cons_self ..), one]; exact look_store_same ..
      · unfold restartedExit; rw [fresh, map, other n]
        simp [Ne.symm n]

/-- With every zone in CLEAR an exit that takes its RESTART values is AVAILABLE (Table 2.3). -/
theorem freshExitRt_reset {s : State} (h : s.zones = Vector.replicate 64 ZoneRt.reset) (e : ExitId) :
    freshExitRt s e
      = ⟨.auto, (look s.map.exits e).baseBias, if (look s.map.exits e).contact.isSome then .unknown else .none, true,
          (look s.map.exits e).contact.isSome⟩ := by
  have zone : smoky (exitZoneState s e) = false := by
    unfold exitZoneState zoneOf
    cases exitZone s e with
    | none => rfl
    | some z => rw [h]; simp only [Option.map_some, look_replicate]; rfl
  unfold freshExitRt; rw [freshContact_eq]
  unfold availability; rw [zone]
  cases (look s.map.exits e).contact <;> rfl

/-! ## The blocks -/

/-- The EXIT notices of RESTART, in ascending exit index (R43, R158). -/
def openedNotices (s : State) : List Notice :=
  ((List.finRange 24).filter fun e => (look s.map.exits e).defined && !(exitOf s e).available).map fun e =>
    .exit e true .auto (if (look s.map.exits e).contact.isSome then .unknown else .none) ((exitZone s e).map fun _ => .clear)

theorem flatMap_if {α β : Type} (l : List α) (p : α → Bool) (f : α → β) :
    (l.flatMap fun a => if p a then [f a] else []) = (l.filter p).map f := by
  induction l with
  | nil => rfl
  | cons a l ih => by_cases h : p a = true <;> simp [h, ih]

/-- The part with every zone and contact at its reset value (R158 step 3). -/
def zonesReset (s : State) : State :=
  { s with zones := Vector.replicate 64 ZoneRt.reset, scanner := Vector.replicate 32 Contact.reset }

theorem openedNotices_eq (s : State) : (List.finRange 24).flatMap (freshNotices (zonesReset s)) = openedNotices s := by
  unfold openedNotices
  rw [← flatMap_if]
  refine List.flatMap_congr fun e _ => ?_
  have zone : exitZoneState (zonesReset s) e = (exitZone s e).map fun _ => .clear := by
    unfold exitZoneState zoneOf zonesReset
    simp only [look_replicate]; rfl
  have fresh := freshExitRt_reset (s := zonesReset s) rfl e
  unfold freshNotices
  rw [fresh, zone]
  have flag (b : Bool) : (true != b) = !b := by cases b <;> rfl
  dsimp only
  rw [flag]; rfl

/-- The engine, exits, aisles, zones and scanner after RESTART step 3 (R158). -/
def restarted (s : State) : State :=
  { zonesReset s with
    exits := tabulate 24 (restartedExit (zonesReset s))
    map := { s.map with aisles := tabulate 480 fun x => { look s.map.aisles x with blocked := false } }
    engine := restingEngine s.map
    link := offerAll (openedNotices s) s.link }

theorem restartBlocks_eq (s : State) : restartBlocks s = restarted s := by
  obtain ⟨x, e, column⟩ := foldl_restartExit (List.finRange 24) (List.nodup_finRange 24) (zonesReset s)
  have table : x = tabulate 24 (restartedExit (zonesReset s)) :=
    table_ext fun k => by rw [column, if_pos (List.mem_finRange k), look_tabulate]
  rw [openedNotices_eq, table] at e
  have passes : restartBlocks s = clearEngine (openAisles (forEach 24 restartExit (zonesReset s))) := rfl
  have engine (u : State) (h : u.map.points = s.map.points) : restingEngine u.map = restingEngine s.map := by
    unfold restingEngine clearedTable; rw [h]
  rw [passes, forEach, e, clearEngine_eq, engine]
  · rfl
  · rfl

theorem restarted_mode (s : State) : (restarted s).mode = s.mode := rfl

/-! ## The request -/

/-- The part as RESTART brings it to its mode, before the blocks are told (R158 step 4). -/
def restarting (s : State) : State :=
  offer (.mode (some s.mode) (restartMode s) .restart (if s.mode = .validating then .cancelled else .none) none)
    { restarted (cancelled s) with mode := restartMode s }

theorem cancelled_eq (s : State) :
    cancelled s = { s with
      map := { s.map with lastValidation := if s.mode = .validating then .cancelled else s.map.lastValidation }
      link := { s.link with notices := [], lossMark := false, discarded := false } } := by
  unfold cancelled; split <;> rfl

theorem restart_taken {s : State} (hm : s.mode ≠ .alarm) :
    restart s = taken .done (recomputeAll (restartGuard (restarting s))) := by
  have mode : (restarted (cancelled s)).mode = s.mode := by rw [restarted_mode, cancelled_eq]
  rw [restart_eq s hm, restartBlocks_eq]
  unfold changeMode restarting; rw [mode]

/-- The runtime fields of the exits after RESTART (R39). -/
def restartExits (s : State) : Vector ExitRt 24 :=
  tabulate 24 fun e =>
    if (look s.map.exits e).defined then
      ⟨.auto, (look s.map.exits e).baseBias, if (look s.map.exits e).contact.isSome then .unknown else .none, true,
        (look s.map.exits e).contact.isSome⟩
    else exitOf s e

theorem restartedExits_eq (s : State) : tabulate 24 (restartedExit (zonesReset s)) = restartExits s := by
  unfold restartExits
  congr 1; funext e
  unfold restartedExit; rw [freshExitRt_reset (s := zonesReset s) rfl e]; rfl

/-- The part that RESTART, once in service, brings to its mode, before the timers and the run of GUARD. -/
def restartedTo (s : State) : State :=
  { s with
    zones := Vector.replicate 64 ZoneRt.reset
    scanner := Vector.replicate 32 Contact.reset
    exits := restartExits s
    map := { s.map with
      aisles := tabulate 480 fun x => { look s.map.aisles x with blocked := false }
      lastValidation := if s.mode = .validating then .cancelled else s.map.lastValidation }
    engine := restingEngine s.map
    mode := restartMode s
    link := offerAll
      (openedNotices s
        ++ [.mode (some s.mode) (restartMode s) .restart (if s.mode = .validating then .cancelled else .none) none])
      { s.link with serving := true, notices := [], lossMark := false, discarded := false } }

theorem restarting_eq (s : State) : restarting (begun s) = restartedTo s := by
  have engine (m : MapStore) (h : m.points = s.map.points) : restingEngine m = restingEngine s.map := by
    unfold restingEngine clearedTable; rw [h]
  unfold restarting restarted restartedTo
  rw [cancelled_eq, restartedExits_eq, engine, offerAll_append]
  · rfl
  · rfl

theorem restart_refused {s : State} (hm : s.mode = .alarm) : restart s = refuse .wrongMode s := if_pos hm

/-- With every zone in CLEAR no zone asks for ALARM (R34). -/
theorem entryRequests_reset {s : State} (h : s.zones = Vector.replicate 64 ZoneRt.reset) : entryRequests s = [] := by
  have quiet : firstIndex 64 (zoneInSmoke s) = none := firstIndex_none.mpr fun z => by
    unfold zoneInSmoke zoneOf; rw [h, look_replicate]; exact Bool.and_false _
  unfold entryRequests; rw [quiet]; simp

theorem restartGuard_setup {s : State} (hm : s.mode ≠ .guard) : restartGuard s = s := if_neg hm

theorem restartGuard_guard {s : State} (hm : s.mode = .guard) (h : s.zones = Vector.replicate 64 ZoneRt.reset) :
    restartGuard s = startRun { s with zones := tabulate 64 (guardedZone s) } := by
  unfold restartGuard; rw [if_pos hm, enterGuard_eq hm, entryRequests_reset h, List.append_nil]

theorem guardedZone_reset {s : State} (h : s.zones = Vector.replicate 64 ZoneRt.reset) (z : ZoneId) :
    guardedZone s z = ⟨.clear, none, none, none,
      if (look s.map.zones z).defined ∧ (look s.map.zones z).supervised then some (s.now + 1000 * s.timing.silenceTime)
      else none⟩ := by
  have zone : zoneOf s z = ZoneRt.reset := by unfold zoneOf; rw [h, look_replicate]
  unfold guardedZone; rw [zone]
  by_cases d : (look s.map.zones z).defined = true <;> by_cases v : (look s.map.zones z).supervised = true <;>
    simp [d, v, ZoneRt.reset, watched]

end Sys2Proof.Machine

namespace Sys2Proof.Proofs

open Sys2Proof Sys2Proof.Machine

/-- Settles O18: the steps of RESTART in closed form, over a validated map and over another. -/
theorem restartEffect : Obligations.RestartEffect := by
  unfold Obligations.RestartEffect
  intro tag s hr
  have hx := exec_restart tag s
  refine ⟨fun hm => refuses_by rfl hx hr (restart_refused hm), fun hm => ?_⟩
  intro m contact fresh opened
  have act := restart_taken (s := begun s) hm
  have start := restarting_eq s
  by_cases v : s.map.validated = true
  · have guard : m = .guard := if_pos v
    have runs : restartGuard (restarting (begun s))
        = { restarting (begun s) with
            zones := tabulate 64 (guardedZone (restarting (begun s)))
            engine := (startRun { restarting (begun s) with zones := tabulate 64 (guardedZone (restarting (begun s))) }).engine } :=
      restartGuard_guard (by rw [start]; exact guard) (by rw [start]; rfl)
    rw [runs, start] at act
    unfold restartedTo at act
    refine serves_recomputed rfl hx hr act rfl rfl rfl ?_
    rintro t ⟨d, q, l, rfl⟩ again
    refine ⟨rfl, fun p => look_replicate .., fun e => look_tabulate .., fun x => look_tabulate .., rfl, rfl,
      fun z => ?_, ?_, again, by dsimp only [withDisplays]⟩
    · refine (look_tabulate ..).trans ((guardedZone_reset rfl z).trans ?_)
      simp only [guard, true_and]
    · rw [if_pos guard]
      exact startsRun_of (w := { restartedTo s with zones := tabulate 64 (guardedZone (restartedTo s)) }) rfl rfl
        (takeSnapshot_congr rfl rfl rfl fun _ => rfl) rfl
  · have setup : m = .setup := if_neg v
    have rest : restartGuard (restarting (begun s)) = restarting (begun s) :=
      restartGuard_setup (by rw [start]; show m ≠ .guard; rw [setup]; nofun)
    rw [rest, start] at act
    unfold restartedTo at act
    refine serves_recomputed rfl hx hr act rfl rfl rfl ?_
    rintro t ⟨d, q, l, rfl⟩ again
    refine ⟨rfl, fun p => look_replicate .., fun e => look_tabulate .., fun x => look_tabulate .., rfl, rfl,
      fun z => ?_, ?_, again, by dsimp only [withDisplays]⟩
    · refine (look_replicate ZoneRt.reset z).trans ?_
      simp only [setup, reduceCtorEq, false_and, if_false]; rfl
    · rw [if_neg (by rw [setup]; nofun)]

end Sys2Proof.Proofs
end

section
/-! Reachability in check 4 of a validation: the marks that the sweeps leave are the points from which an EXIT point can be
reached (R16). -/

namespace Sys2Proof.Machine

/-! ## One mark, one aisle -/

/-- The marks of a sweep in progress: none is lost, and the flag says whether one was made. -/
structure Sweeping (start : Marks) (w : Marks × Bool) : Prop where
  kept : ∀ p, look start p = true → look w.1 p = true
  grown : w.2 = true → ∃ p, look w.1 p = true ∧ look start p = false
  same : w.2 = false → w.1 = start

theorem Sweeping.begins (start : Marks) : Sweeping start (start, false) := ⟨fun _ h => h, nofun, fun _ => rfl⟩

theorem Sweeping.markFrom {start : Marks} {w : Marks × Bool} (h : Sweeping start w) (v u : PointId) :
    Sweeping start (markFrom v u w) := by
  unfold Machine.markFrom; split
  · next new =>
    obtain ⟨-, unmarked⟩ := Bool.and_eq_true_iff.mp new
    have mono (p : PointId) (m : look start p = true) : look (store w.1 v true) p = true := by
      rw [look_store]; split
      · rfl
      · exact h.kept p m
    have fresh : look start v = false := by
      by_contra m
      rw [h.kept v (by simpa using m)] at unmarked; cases unmarked
    exact ⟨mono, fun _ => ⟨v, look_store_same .., fresh⟩, nofun⟩
  · exact h

theorem Sweeping.markAisle {start : Marks} {w : Marks × Bool} (h : Sweeping start w) (m : MapStore) (x : AisleId) :
    Sweeping start (markAisle m x w) := by
  unfold Machine.markAisle; dsimp only
  split
  · split <;> split
    · exact (h.markFrom _ _).markFrom _ _
    · exact h.markFrom _ _
    · exact h.markFrom _ _
    · exact h
  · exact h

/-- A mark once made, the flag stays set. -/
theorem markFrom_flag {v u : PointId} {w : Marks × Bool} (h : w.2 = true) : (markFrom v u w).2 = true := by
  unfold markFrom; split
  · rfl
  · exact h

theorem markAisle_flag {m : MapStore} {x : AisleId} {w : Marks × Bool} (h : w.2 = true) : (markAisle m x w).2 = true := by
  unfold markAisle; dsimp only
  split
  · split <;> split
    · exact markFrom_flag (markFrom_flag h)
    · exact markFrom_flag h
    · exact markFrom_flag h
    · exact h
  · exact h

/-- Where no mark was to be made, the walk's mark is there already. -/
theorem markFrom_quiet {v u : PointId} {w : Marks × Bool} (h : (markFrom v u w).2 = false) :
    markFrom v u w = w ∧ (look w.1 u = true → look w.1 v = true) := by
  unfold markFrom at h ⊢
  split at h
  · cases h
  · next no =>
    rw [if_neg no]
    exact ⟨rfl, fun mu => by simpa [mu] using no⟩

/-- No walk along an aisle leads from an unmarked point to a marked one. -/
def ClosedAt (m : MapStore) (marks : Marks) (x : AisleId) : Prop :=
  (look m.aisles x).defined = true →
    ((look m.aisles x).passage.fromA = true → look marks (look m.aisles x).endB = true →
      look marks (look m.aisles x).endA = true)
    ∧ ((look m.aisles x).passage.fromB = true → look marks (look m.aisles x).endA = true →
      look marks (look m.aisles x).endB = true)

theorem markAisle_quiet {m : MapStore} {x : AisleId} {w : Marks × Bool} (h : (markAisle m x w).2 = false) :
    markAisle m x w = w ∧ ClosedAt m w.1 x := by
  have quiet {v u : PointId} {w : Marks × Bool} (h : (markFrom v u w).2 = false) : w.2 = false := by
    by_contra set
    rw [markFrom_flag (by simpa using set)] at h; cases h
  unfold markAisle at h ⊢
  unfold ClosedAt
  dsimp only at h ⊢
  by_cases d : (look m.aisles x).defined = true
  · by_cases a : (look m.aisles x).passage.fromA = true <;> by_cases b : (look m.aisles x).passage.fromB = true <;>
      simp only [d, a, b, if_true, Bool.false_eq_true, if_false, forall_const, false_imp_iff, true_and, and_true] at h ⊢
    · obtain ⟨same, toB⟩ := markFrom_quiet h
      obtain ⟨first, toA⟩ := markFrom_quiet (quiet h)
      rw [first] at same toB
      rw [first]
      exact ⟨same, toA, toB⟩
    · exact markFrom_quiet h
    · exact markFrom_quiet h
  · simp [d]

/-! ## One sweep -/

/-- What a sweep leaves from given marks. -/
def sweepMarks (m : MapStore) (marks : Marks) : Marks × Bool := forEach 480 (markAisle m) (marks, false)

theorem sweepMarks_sweeping (m : MapStore) (marks : Marks) : Sweeping marks (sweepMarks m marks) :=
  forEach_induct (P := Sweeping marks) _ _ (.begins marks) fun x _ h => h.markAisle m x

theorem foldl_markAisle_quiet (m : MapStore) (xs : List AisleId) (marks : Marks)
    (h : (xs.foldl (fun w x => markAisle m x w) (marks, false)).2 = false) : ∀ x ∈ xs, ClosedAt m marks x := by
  induction xs with
  | nil => intro x mem; cases mem
  | cons y ys ih =>
    rw [List.foldl_cons] at h
    have first : (markAisle m y (marks, false)).2 = false := by
      by_contra set
      have stays : (ys.foldl (fun w x => markAisle m x w) (markAisle m y (marks, false))).2 = true :=
        foldl_induct (P := fun w : Marks × Bool => w.2 = true) _ ys _ (by simpa using set) fun _ _ h => markAisle_flag h
      rw [stays] at h; cases h
    obtain ⟨same, closed⟩ := markAisle_quiet first
    rw [same] at h
    intro x mem
    rcases List.mem_cons.mp mem with rfl | mem
    · exact closed
    · exact ih h x mem

/-- A sweep that marks nothing shows that no walk is left (R16 step 3). -/
theorem sweepMarks_quiet {m : MapStore} {marks : Marks} (h : (sweepMarks m marks).2 = false) :
    (sweepMarks m marks).1 = marks ∧ ∀ x, ClosedAt m marks x := by
  refine ⟨(sweepMarks_sweeping m marks).same h, ?_⟩
  unfold sweepMarks forEach at h
  exact fun x => foldl_markAisle_quiet m _ marks h x (List.mem_finRange x)

/-! ## Soundness of the marks -/

/-- Every mark stands at a point from which an EXIT point can be reached. -/
def MarksSound (m : MapStore) (marks : Marks) : Prop := ∀ p, look marks p = true → Reaches m p

theorem MarksSound.markFrom {m : MapStore} {w : Marks × Bool} (h : MarksSound m w.1) {v u : PointId}
    (walk : Reaches m u → Reaches m v) : MarksSound m (markFrom v u w).1 := by
  unfold Machine.markFrom; split
  · next new =>
    obtain ⟨marked, -⟩ := Bool.and_eq_true_iff.mp new
    intro p mp
    rw [look_store] at mp
    split at mp
    · next e => exact e ▸ walk (h u marked)
    · exact h p mp
  · exact h

theorem MarksSound.markAisle {m : MapStore} {w : Marks × Bool} (h : MarksSound m w.1) (x : AisleId) :
    MarksSound m (markAisle m x w).1 := by
  unfold Machine.markAisle; dsimp only
  split
  · next d =>
    split <;> split
    · next b a => exact (h.markFrom fun r => .forward x d a r).markFrom fun r => .backward x d b r
    · next b _ => exact h.markFrom fun r => .backward x d b r
    · next _ a => exact h.markFrom fun r => .forward x d a r
    · exact h
  · exact h

theorem MarksSound.sweep {m : MapStore} {marks : Marks} (h : MarksSound m marks) : MarksSound m (sweepMarks m marks).1 :=
  forEach_induct (P := fun w : Marks × Bool => MarksSound m w.1) _ _ h fun x _ h => h.markAisle x

/-! ## All sweeps -/

/-- How many points are marked. -/
def markCount (marks : Marks) : Nat := (Finset.univ.filter fun p : PointId => look marks p = true).card

theorem markCount_le (marks : Marks) : markCount marks ≤ 240 :=
  (Finset.card_le_univ _).trans (Fintype.card_fin 240).le

theorem markCount_sweep {m : MapStore} {marks : Marks} (h : (sweepMarks m marks).2 = true) :
    markCount marks < markCount (sweepMarks m marks).1 := by
  obtain ⟨p, marked, unmarked⟩ := (sweepMarks_sweeping m marks).grown h
  refine Finset.card_lt_card (Finset.ssubset_iff_of_subset ?_ |>.mpr ⟨p, ?_, ?_⟩)
  · intro q; simpa using (sweepMarks_sweeping m marks).kept q
  · simpa using marked
  · simp [unmarked]

theorem markSweeps_succ (m : MapStore) (fuel : Nat) (marks : Marks) :
    markSweeps m (fuel + 1) marks
      = if (sweepMarks m marks).2 then markSweeps m fuel (sweepMarks m marks).1 else (sweepMarks m marks).1 := rfl

theorem markSweeps_sound {m : MapStore} (fuel : Nat) {marks : Marks} (h : MarksSound m marks) :
    MarksSound m (markSweeps m fuel marks) := by
  induction fuel generalizing marks with
  | zero => exact h
  | succ fuel ih =>
    rw [markSweeps_succ]; split
    · exact ih h.sweep
    · exact h.sweep

theorem markSweeps_mono {m : MapStore} (fuel : Nat) {marks : Marks} {p : PointId} (h : look marks p = true) :
    look (markSweeps m fuel marks) p = true := by
  induction fuel generalizing marks with
  | zero => exact h
  | succ fuel ih =>
    have swept := (sweepMarks_sweeping m marks).kept p h
    rw [markSweeps_succ]; split
    · exact ih swept
    · exact swept

/-- With a sweep to spare for every point that is not marked yet, the sweeps end in one that marks nothing (R16 step 3). -/
theorem markSweeps_closed {m : MapStore} (fuel : Nat) {marks : Marks} (enough : 240 < markCount marks + fuel) (x : AisleId) :
    ClosedAt m (markSweeps m fuel marks) x := by
  induction fuel generalizing marks with
  | zero => have := markCount_le marks; omega
  | succ fuel ih =>
    rw [markSweeps_succ]; split
    · next grown => exact ih (by have := markCount_sweep grown; omega)
    · next quiet =>
      obtain ⟨same, closed⟩ := sweepMarks_quiet (Bool.eq_false_of_not_eq_true quiet)
      rw [same]; exact closed x

theorem isExitPoint_marked (m : MapStore) (p : PointId) :
    look (tabulate 240 (isExitPoint m)) p = true ↔ isExitPoint m p = true := by rw [look_tabulate]

/-- The marks of check 4 are the points from which an EXIT point can be reached (R16). -/
theorem reachableMarks_iff (m : MapStore) (p : PointId) : look (reachableMarks m) p = true ↔ Reaches m p := by
  unfold reachableMarks
  constructor
  · exact fun h => markSweeps_sound (m := m) 240
      (fun q e => .exit q ((isExitPoint_marked m q).mp e)) p h
  · intro r
    have first : ∃ q, isExitPoint m q = true := by
      induction r with
      | exit q e => exact ⟨q, e⟩
      | forward _ _ _ _ ih => exact ih
      | backward _ _ _ _ ih => exact ih
    obtain ⟨q, e⟩ := first
    have one : 0 < markCount (tabulate 240 (isExitPoint m)) :=
      Finset.card_pos.mpr ⟨q, by simpa [isExitPoint_marked] using e⟩
    have closed := markSweeps_closed (m := m) 240 (marks := tabulate 240 (isExitPoint m)) (by omega)
    induction r with
    | exit q e => exact markSweeps_mono 240 ((isExitPoint_marked m q).mpr e)
    | forward x d a _ ih => exact (closed x d).1 a ih
    | backward x d b _ ih => exact (closed x d).2 b ih

end Sys2Proof.Machine
end

section
/-! Validation finds the first failure of Table 1.2 (R15). -/

namespace Sys2Proof.Machine

/-! ## The first failure of a part of the table -/

/-- The result of some of the checks: the failure of lowest rank among those that the checks are about, and none where there
is no such failure. -/
structure FirstOf (s : State) (about : Failure → Prop) (r : Option Failure) : Prop where
  clean : r = none → ∀ g, Fails s g → ¬about g
  fails : ∀ f, r = some f → Fails s f ∧ about f
  least : ∀ f, r = some f → ∀ g, Fails s g → about g → f.rank ≤ g.rank

theorem FirstOf.congr {s : State} {A B : Failure → Prop} {r : Option Failure} (h : FirstOf s A r)
    (same : ∀ g, Fails s g → (A g ↔ B g)) : FirstOf s B r :=
  ⟨fun e g hg b => h.clean e g hg ((same g hg).mpr b),
    fun f e => ⟨(h.fails f e).1, (same f (h.fails f e).1).mp (h.fails f e).2⟩,
    fun f e g hg b => h.least f e g hg ((same g hg).mpr b)⟩

/-- Checks made one after the other, the first about failures of lower rank. -/
theorem FirstOf.or {s : State} {A B : Failure → Prop} {r q : Option Failure} (h : FirstOf s A r) (k : FirstOf s B q)
    (before : ∀ f g, Fails s f → Fails s g → A f → B g → f.rank ≤ g.rank) : FirstOf s (fun f => A f ∨ B f) (r.or q) := by
  cases r with
  | none =>
    rw [Option.none_or]
    have no (g : Failure) (hg : Fails s g) : ¬A g := h.clean rfl g hg
    refine ⟨fun e g hg => ?_, fun f e => ⟨(k.fails f e).1, .inr (k.fails f e).2⟩, fun f e g hg => ?_⟩
    · rintro (a | b)
      · exact no g hg a
      · exact k.clean e g hg b
    · rintro (a | b)
      · exact absurd a (no g hg)
      · exact k.least f e g hg b
  | some f₀ =>
    rw [Option.some_or]
    obtain ⟨fails, a₀⟩ := h.fails f₀ rfl
    refine ⟨nofun, fun f e => ?_, fun f e g hg => ?_⟩ <;> cases e
    · exact ⟨fails, .inl a₀⟩
    · rintro (a | b)
      · exact h.least f₀ rfl g hg a
      · exact before f₀ g fails hg a₀ b

/-- The failures of one check in one table. -/
def partOf (check : Nat) (table : FailTable) (f : Failure) : Prop := f.check = check ∧ f.table = table

theorem rank_index_le {check : Nat} {table : FailTable} {i j : Nat} (h : i ≤ j) :
    (Failure.mk check table i).rank ≤ (Failure.mk check table j).rank := by unfold Failure.rank; dsimp only; omega

theorem Fails.index_lt {s : State} {f : Failure} (h : Fails s f) : f.index < 480 := by
  cases h <;> dsimp only <;> omega

/-- Failures of a lower check come first. -/
theorem rank_of_check {s : State} {f g : Failure} (hf : Fails s f) (h : f.check < g.check) : f.rank ≤ g.rank := by
  have := hf.index_lt
  unfold Failure.rank; split <;> split <;> omega

/-- One check and then all later ones. -/
theorem FirstOf.thenLater {s : State} {k : Nat} {r q : Option Failure} (h : FirstOf s (fun f => f.check = k) r)
    (later : FirstOf s (fun f => k + 1 ≤ f.check) q) : FirstOf s (fun f => k ≤ f.check) (r.or q) :=
  (h.or later fun _ _ hf _ a b => rank_of_check hf (by omega)).congr fun _ _ => by omega

/-- A search through the records of one table in ascending index (R15). -/
theorem firstOf_failureAt {s : State} {n : Nat} {check : Nat} {table : FailTable} {bad : Fin n → Bool}
    (sound : ∀ i, bad i = true → Fails s ⟨check, table, i.val⟩)
    (complete : ∀ g, Fails s g → partOf check table g → ∃ i, bad i = true ∧ g = ⟨check, table, i.val⟩) :
    FirstOf s (partOf check table) (failureAt check table (firstIndex n bad)) := by
  unfold failureAt
  refine ⟨fun e g hg part => ?_, fun f e => ?_, fun f e g hg part => ?_⟩
  · obtain ⟨i, b, -⟩ := complete g hg part
    rw [firstIndex_none.mp (Option.map_eq_none_iff.mp e) i] at b; cases b
  · obtain ⟨i, found, rfl⟩ := Option.map_eq_some_iff.mp e
    exact ⟨sound i (firstIndex_some found), rfl, rfl⟩
  · obtain ⟨i, found, rfl⟩ := Option.map_eq_some_iff.mp e
    obtain ⟨j, b, rfl⟩ := complete g hg part
    refine rank_index_le (Nat.le_of_not_lt fun lt => ?_)
    rw [firstIndex_least found lt] at b; cases b

/-! ## The checks -/

theorem firstOf_check1 (s : State) : FirstOf s (fun f => f.check = 1) (check1 s.map) := by
  have noPoint : (firstIndex 240 (pointDefined s.map)).isNone = true ↔ ∀ p, (look s.map.points p).defined = false :=
    Option.isNone_iff_eq_none.trans firstIndex_none
  have noExit : (firstIndex 24 fun e => (look s.map.exits e).defined).isNone = true ↔
      ∀ e, (look s.map.exits e).defined = false := Option.isNone_iff_eq_none.trans firstIndex_none
  unfold check1
  by_cases p : ∀ p, (look s.map.points p).defined = false
  · rw [if_pos (noPoint.mpr p)]
    refine ⟨nofun, fun f e => ?_, fun f e g hg part => ?_⟩ <;> cases e
    · exact ⟨.noPoint p, rfl⟩
    · cases hg
      case noPoint => exact le_refl _
      case noExit => exact rank_index_le (Nat.zero_le _)
      all_goals cases part
  · rw [if_neg (mt noPoint.mp p)]
    by_cases x : ∀ e, (look s.map.exits e).defined = false
    · rw [if_pos (noExit.mpr x)]
      refine ⟨nofun, fun f e => ?_, fun f e g hg part => ?_⟩ <;> cases e
      · exact ⟨.noExit x, rfl⟩
      · cases hg
        case noPoint h => exact absurd h p
        case noExit => exact le_refl _
        all_goals cases part
    · rw [if_neg (mt noExit.mp x)]
      refine ⟨fun _ g hg part => ?_, nofun, nofun⟩
      cases hg
      case noPoint h => exact p h
      case noExit h => exact x h
      all_goals cases part

theorem badAisle_iff (m : MapStore) (x : AisleId) : badAisle m x = true ↔
    (look m.aisles x).defined = true
      ∧ ¬(pointDefined m (look m.aisles x).endA = true ∧ pointDefined m (look m.aisles x).endB = true
        ∧ (look m.aisles x).endA ≠ (look m.aisles x).endB) := by
  simp only [badAisle, Bool.and_eq_true, Bool.not_eq_true', Bool.eq_false_iff, ne_eq, bne_iff_ne, and_assoc]

theorem firstOf_check2 (s : State) : FirstOf s (fun f => f.check = 2) (check2 s.map) := by
  have part : FirstOf s (partOf 2 .aisle) (check2 s.map) := by
    refine firstOf_failureAt (fun x b => ?_) fun g hg part => ?_
    · obtain ⟨d, bad⟩ := (badAisle_iff s.map x).mp b
      exact .aisleEnds x d bad
    · cases hg
      case aisleEnds x d bad => exact ⟨x, (badAisle_iff s.map x).mpr ⟨d, bad⟩, rfl⟩
      all_goals cases part.1
  refine part.congr fun g hg => ⟨fun h => h.1, fun h => ⟨h, ?_⟩⟩
  cases hg
  case aisleEnds => rfl
  all_goals cases h

theorem countIndex_one {n : Nat} (p : Fin n → Bool) : countIndex n p = 1 ↔ ∃! i, p i = true := by
  unfold countIndex
  rw [List.countP_eq_length_filter, List.length_eq_one_iff]
  have mem (i : Fin n) : i ∈ (List.finRange n).filter p ↔ p i = true := by simp
  constructor
  · rintro ⟨i, e⟩
    refine ⟨i, (mem i).mp (by rw [e]; exact List.mem_singleton_self i), fun j hj => ?_⟩
    have := (mem j).mpr hj
    rw [e] at this; exact List.mem_singleton.mp this
  · rintro ⟨i, pi, only⟩
    have once := List.perm_ext_iff_of_nodup ((List.nodup_finRange n).filter p) (List.nodup_singleton i)
    refine ⟨i, List.perm_singleton.mp (once.mpr fun j => ?_)⟩
    rw [mem, List.mem_singleton]
    exact ⟨fun h => only j h, fun h => h ▸ pi⟩

theorem badExitPoint_iff (m : MapStore) (p : PointId) : badExitPoint m p = true ↔
    isExitPoint m p = true ∧ ¬∃! e, (look m.exits e).defined = true ∧ (look m.exits e).point = p := by
  have named : exitsNaming m p = 1 ↔ ∃! e, (look m.exits e).defined = true ∧ (look m.exits e).point = p :=
    (countIndex_one _).trans (by simp)
  simp [badExitPoint, named]

theorem firstOf_check3 (s : State) : FirstOf s (fun f => f.check = 3) (check3 s.map) := by
  have exits : FirstOf s (partOf 3 .exit) (failureAt 3 .exit (firstIndex 24 (badExit s.map))) := by
    refine firstOf_failureAt (fun e b => ?_) fun g hg part => ?_
    · obtain ⟨d, bad⟩ := Bool.and_eq_true_iff.mp b
      exact .exitPoint e d (by simpa using bad)
    · cases hg
      case exitPoint e d bad => exact ⟨e, by simp [badExit, d, bad], rfl⟩
      all_goals cases part.1
      cases part.2
  have points : FirstOf s (partOf 3 .point) (failureAt 3 .point (firstIndex 240 (badExitPoint s.map))) := by
    refine firstOf_failureAt (fun p b => ?_) fun g hg part => ?_
    · obtain ⟨d, bad⟩ := (badExitPoint_iff s.map p).mp b
      exact .pointExits p d bad
    · cases hg
      case pointExits p d bad => exact ⟨p, (badExitPoint_iff s.map p).mpr ⟨d, bad⟩, rfl⟩
      all_goals cases part.1
      cases part.2
  refine (exits.or points fun f g hf _ a b => ?_).congr fun g hg => ⟨fun h => h.elim And.left And.left, fun h => ?_⟩
  · obtain ⟨_, _, i⟩ := f
    obtain ⟨_, _, j⟩ := g
    obtain ⟨rfl, rfl⟩ := a
    obtain ⟨rfl, rfl⟩ := b
    have := hf.index_lt
    simp [Failure.rank] at this ⊢; omega
  · cases hg
    case exitPoint => exact .inl ⟨rfl, rfl⟩
    case pointExits => exact .inr ⟨rfl, rfl⟩
    all_goals cases h

theorem firstOf_check4 (s : State) : FirstOf s (fun f => f.check = 4) (check4 s.map) := by
  have lost (p : PointId) : (pointDefined s.map p && !look (reachableMarks s.map) p) = true ↔
      pointDefined s.map p = true ∧ ¬Reaches s.map p := by rw [← reachableMarks_iff]; simp
  have part : FirstOf s (partOf 4 .point) (check4 s.map) := by
    refine firstOf_failureAt (fun p b => ?_) fun g hg part => ?_
    · obtain ⟨d, bad⟩ := (lost p).mp b
      exact .noWayOut p d bad
    · cases hg
      case noWayOut p d bad => exact ⟨p, (lost p).mpr ⟨d, bad⟩, rfl⟩
      all_goals cases part.1
  refine part.congr fun g hg => ⟨fun h => h.1, fun h => ⟨h, ?_⟩⟩
  cases hg
  case noWayOut => rfl
  all_goals cases h

theorem zoneMissing_iff (m : MapStore) (z : Option ZoneId) :
    zoneMissing m z = true ↔ ∃ y, z = some y ∧ (look m.zones y).defined = false := by
  cases z <;> simp [zoneMissing]

theorem firstOf_check5 (s : State) : FirstOf s (fun f => f.check = 5) (check5 s.map) := by
  have points : FirstOf s (partOf 5 .point)
      (failureAt 5 .point (firstIndex 240 fun p => pointDefined s.map p && zoneMissing s.map (look s.map.points p).zone)) := by
    refine firstOf_failureAt (fun p b => ?_) fun g hg part => ?_
    · obtain ⟨d, bad⟩ := Bool.and_eq_true_iff.mp b
      obtain ⟨z, n, u⟩ := (zoneMissing_iff _ _).mp bad
      exact .pointZone p z d n u
    · cases hg
      case pointZone p z d n u => exact ⟨p, by rw [d, (zoneMissing_iff _ _).mpr ⟨z, n, u⟩]; rfl, rfl⟩
      all_goals cases part.1
      cases part.2
  have aisles : FirstOf s (partOf 5 .aisle) (failureAt 5 .aisle
      (firstIndex 480 fun x => (look s.map.aisles x).defined && zoneMissing s.map (look s.map.aisles x).zone)) := by
    refine firstOf_failureAt (fun x b => ?_) fun g hg part => ?_
    · obtain ⟨d, bad⟩ := Bool.and_eq_true_iff.mp b
      obtain ⟨z, n, u⟩ := (zoneMissing_iff _ _).mp bad
      exact .aisleZone x z d n u
    · cases hg
      case aisleZone x z d n u => exact ⟨x, by rw [d, (zoneMissing_iff _ _).mpr ⟨z, n, u⟩]; rfl, rfl⟩
      all_goals cases part.1
      cases part.2
  refine (points.or aisles fun f g hf _ a b => ?_).congr fun g hg => ⟨fun h => h.elim And.left And.left, fun h => ?_⟩
  · obtain ⟨_, _, i⟩ := f
    obtain ⟨_, _, j⟩ := g
    obtain ⟨rfl, rfl⟩ := a
    obtain ⟨rfl, rfl⟩ := b
    have := hf.index_lt
    simp [Failure.rank] at this ⊢; omega
  · cases hg
    case pointZone => exact .inl ⟨rfl, rfl⟩
    case aisleZone => exact .inr ⟨rfl, rfl⟩
    all_goals cases h

theorem firstOf_check6 (s : State) : FirstOf s (fun f => f.check = 6) (check6 s.map) := by
  have part : FirstOf s (partOf 6 .placement) (check6 s.map) := by
    refine firstOf_failureAt (fun h b => ?_) fun g hg part => ?_
    · obtain ⟨de, bad⟩ := Bool.and_eq_true_iff.mp b
      obtain ⟨d, e⟩ := Bool.and_eq_true_iff.mp de
      exact .placementPoint h d e (by simpa using bad)
    · cases hg
      case placementPoint h d e bad => exact ⟨h, by rw [d, e, bad]; rfl, rfl⟩
      all_goals cases part.1
  refine part.congr fun g hg => ⟨fun h => h.1, fun h => ⟨h, ?_⟩⟩
  cases hg
  case placementPoint => rfl
  all_goals cases h

theorem firstOf_check7 (s : State) : FirstOf s (fun f => 7 ≤ f.check) (check7 s.selector) := by
  have missing (i : Fin 10) : ((look s.selector.kindMap i).val != 0
      && (scriptOf s.selector (look s.selector.kindMap i)).isNone) = true ↔
      look s.selector.kindMap i ≠ 0 ∧ scriptOf s.selector (look s.selector.kindMap i) = none := by
    rw [Bool.and_eq_true, bne_iff_ne, Option.isNone_iff_eq_none, Fin.val_ne_zero_iff]
  have part : FirstOf s (partOf 7 .kindMap) (check7 s.selector) := by
    refine firstOf_failureAt (fun i b => ?_) fun g hg part => ?_
    · obtain ⟨d, bad⟩ := (missing i).mp b
      exact .kindMapScript i d bad
    · cases hg
      case kindMapScript i d bad => exact ⟨i, (missing i).mpr ⟨d, bad⟩, rfl⟩
      all_goals cases part.1
  refine part.congr fun g hg => ⟨fun h => h.1.ge, fun h => ?_⟩
  cases hg
  case kindMapScript => exact ⟨rfl, rfl⟩
  all_goals dsimp only at h; omega

/-- All the checks in their order (R15). -/
theorem firstOf_validate (s : State) : FirstOf s (fun f => 1 ≤ f.check) (validate s) :=
  (firstOf_check1 s).thenLater <| (firstOf_check2 s).thenLater <| (firstOf_check3 s).thenLater <|
    (firstOf_check4 s).thenLater <| (firstOf_check5 s).thenLater <| (firstOf_check6 s).thenLater <| firstOf_check7 s

theorem Fails.check_pos {s : State} {f : Failure} (h : Fails s f) : 1 ≤ f.check := by
  cases h <;> dsimp only <;> omega

end Sys2Proof.Machine

namespace Sys2Proof.Proofs

open Sys2Proof Sys2Proof.Machine

/-- Settles O14: each check finds the first failure of its own kind, check 4 by the marks of the points that reach an EXIT
point, and the checks stand in the order of the ranks. -/
theorem validationFindsFirstFailure : Obligations.ValidationFindsFirstFailure := by
  unfold Obligations.ValidationFindsFirstFailure
  intro s
  have first := firstOf_validate s
  exact ⟨fun none f fails => first.clean none f fails fails.check_pos,
    fun f found => ⟨(first.fails f found).1, fun g fails => first.least f found g fails fails.check_pos⟩⟩

end Sys2Proof.Proofs
end

section
/-! What a hard reset leaves (R157, Tables 1.4, 3.7, 6.2, 7.5, 8.1, 9.1 and 10.4), and that it meets every invariant. -/

namespace Sys2Proof.Machine

/-! ## Digest and notice of the reset state -/

/-- The CRC register after 60 bytes 0xFF. -/
def crcOnes (c : Half) : Half := (List.replicate 60 (0xFF : Byte)).foldl crcByte c

theorem crcOnes_replicate (k : Nat) (c : Half) :
    (List.replicate (60 * k) (0xFF : Byte)).foldl crcByte c = crcOnes^[k] c := by
  induction k generalizing c with
  | zero => rfl
  | succ k ih =>
    rw [Nat.mul_succ, Nat.add_comm, ← List.replicate_append_replicate, List.foldl_append, ih]; rfl

/-- The digest after a hard reset is the CRC of 240 values 0xFFFF (R47), in eight parts that the kernel evaluates one at a
time. -/
theorem crc16_undefined : crc16 (List.replicate 480 0xFF) = resetDigest := by
  have part₁ : crcOnes 0xFFFF = 0x9CCA := by decide +kernel
  have part₂ : crcOnes 0x9CCA = 0x41DB := by decide +kernel
  have part₃ : crcOnes 0x41DB = 0xD3EC := by decide +kernel
  have part₄ : crcOnes 0xD3EC = 0xDB36 := by decide +kernel
  have part₅ : crcOnes 0xDB36 = 0xB2F5 := by decide +kernel
  have part₆ : crcOnes 0xB2F5 = 0x5682 := by decide +kernel
  have part₇ : crcOnes 0x5682 = 0x0F93 := by decide +kernel
  have part₈ : crcOnes 0x0F93 = resetDigest := by decide +kernel
  calc crc16 (List.replicate 480 0xFF) = crcOnes^[8] 0xFFFF := crcOnes_replicate 8 0xFFFF
    _ = resetDigest := by
      simp only [Function.iterate_succ_apply, Function.iterate_zero_apply, part₁, part₂, part₃, part₄, part₅, part₆, part₇, part₈]

theorem digestOf_undefined : digestOf (Vector.replicate 240 Route.undefined) = resetDigest := by
  have bytes : (Vector.replicate 240 Route.undefined).toList.flatMap (fun r => halfBytes (digestValue r))
      = List.replicate 480 0xFF := by
    rw [Vector.toList_replicate, List.flatMap_replicate,
      show halfBytes (digestValue Route.undefined) = List.replicate 2 0xFF from rfl, List.flatten_replicate_replicate]
  unfold digestOf; rw [bytes, crc16_undefined]

theorem resetNotice_eq : resetNotice = sendingOf (noticeFrame (.mode none .setup .hardReset .none none)) := by
  decide +kernel

/-! ## The invariants -/

section Reset
variable (speed : BitVec 2) (pairEn : Bool) (role : Role) (s : State)

theorem hardReset_link : LinkSound (hardReset speed pairEn role s) :=
  ⟨Nat.zero_le _, Nat.zero_le _, Nat.zero_le _, fun _ => ⟨rfl, rfl⟩, nofun, fun _ => rfl, rfl⟩

theorem hardReset_displays : DisplaySound (hardReset speed pairEn role s) := by
  have desired (h : HeadId) : desiredOf (hardReset speed pairEn role s) h = none := look_replicate ..
  have absent (h : HeadId) : (headOf (hardReset speed pairEn role s) h).state = .absent := by
    rw [show headOf (hardReset speed pairEn role s) h = Head.reset from look_replicate ..]; rfl
  exact ⟨fun h => by rw [desired, absent]; rfl, fun h d e => (by rw [desired] at e; cases e), List.nodup_nil, nofun,
    List.Pairwise.nil⟩

theorem clearedTable_reset : clearedTable MapStore.reset = Vector.replicate 240 Route.undefined :=
  table_ext fun p => by
    rw [clearedTable, look_tabulate, look_replicate, show look MapStore.reset.points p = Point.reset from look_replicate ..]
    rfl

theorem hardReset_engine : EngineSound (hardReset speed pairEn role s) :=
  ⟨digestOf_undefined.symm, fun _ => ⟨rfl, clearedTable_reset.symm⟩, ⟨nofun, fun h => absurd rfl h⟩, ⟨nofun, nofun⟩,
    Nat.zero_le _, nofun, Nat.zero_le _⟩

theorem hardReset_run : RunSound (hardReset speed pairEn role s) := ⟨nofun, nofun, nofun, nofun, nofun⟩

theorem hardReset_zones : ZonesSound (hardReset speed pairEn role s) := by
  have zone (z : ZoneId) : zoneOf (hardReset speed pairEn role s) z = ZoneRt.reset := look_replicate ..
  refine ⟨fun z _ => zone z, fun z h => ?_, fun z => ?_, fun z h => ?_⟩
  · rw [zone] at h; cases h
  · rw [zone]; exact ⟨nofun, nofun⟩
  · rw [zone] at h; cases h

theorem hardReset_exits : ExitsSound (hardReset speed pairEn role s) := by
  have undefined (e : ExitId) : (look (hardReset speed pairEn role s).map.exits e).defined = false := by
    rw [show look (hardReset speed pairEn role s).map.exits e = Exit.reset from look_replicate ..]; rfl
  refine ⟨fun e d => ?_, fun e d => ?_, fun e _ => look_replicate ..⟩
  · rw [undefined] at d; cases d
  · rw [undefined] at d; cases d

end Reset

end Sys2Proof.Machine

namespace Sys2Proof.Proofs

open Sys2Proof Sys2Proof.Machine

/-- Settles O2: the tables are filled with one record each, and the digest and the notice are evaluated. -/
theorem hardResetGivesEveryValue : Obligations.HardResetGivesEveryValue := by
  unfold Obligations.HardResetGivesEveryValue
  intro speed pairEn role s
  refine ⟨_, exec_hardReset speed pairEn role s, fun _ => look_replicate .., fun _ => look_replicate ..,
    fun _ => look_replicate .., fun _ => look_replicate .., fun _ => look_replicate .., rfl, rfl, fun _ => look_replicate .., rfl,
    fun _ => look_replicate .., fun _ => look_replicate .., rfl, rfl, fun _ => look_replicate .., rfl, rfl, rfl, rfl, rfl, rfl,
    rfl, fun _ => look_replicate .., crc16_undefined.symm, fun _ => look_replicate .., fun _ => look_replicate .., rfl,
    fun _ => look_replicate .., rfl, ?_, fun _ => look_replicate .., rfl, rfl, ?_, rfl, rfl, ?_, rfl, rfl, rfl, rfl⟩
  · cases pairEn <;> rfl
  · cases role <;> rfl
  · rw [← resetNotice_eq]; rfl

/-- Settles O3: the reset state is that of the straps of log 6, and each invariant holds of a hard reset. -/
theorem resetIsSound : Obligations.ResetIsSound := by
  unfold Obligations.ResetIsSound
  refine ⟨(exec_hardReset 0 false .a State.reset).trans rfl, fun speed pairEn role s t h => ?_⟩
  obtain rfl : hardReset speed pairEn role s = t := Host.Outcome.next.inj ((exec_hardReset speed pairEn role s).symm.trans h)
  exact ⟨hardReset_link .., hardReset_displays .., hardReset_engine .., hardReset_run .., hardReset_pair .., hardReset_heads ..,
    hardReset_zones .., hardReset_exits .., hardReset_ranges .., hardReset_mode ..⟩

end Sys2Proof.Proofs
end

section
/-! The queries (R13, R133, R166): what each answers, field by field. -/

namespace Sys2Proof.Machine

/-! ## Answers -/

/-- A query answers its data and changes nothing (R165). -/
theorem serves_answer {i : Instr} {s : State} {f : PanelFrame} {act : State → Served} {data : List Byte}
    (he : encodeRequest i = some f) (hx : exec i s = .next (takeRequest f act s)) (hr : Ready s)
    (ha : act (begun s) = answer data (begun s)) : Serves i s .done data [] (OnlyLink s) :=
  serves_by he hx hr ha rfl rfl rfl fun _ => rfl

/-! ## GET STATUS -/

/-- The last validation result as one byte (Table 11.4). -/
def resultByte : Validation → Byte
  | .none => 0
  | .running => 1
  | .passed => 2
  | .failed _ => 3
  | .cancelled => 4

/-- The failure record of a validation (Table 11.4). -/
def failurePart : Validation → List Byte
  | .failed f => [natByte f.check, failTableCode f.table] ++ natHalf f.index
  | _ => [0, 0, 0, 0]

theorem validationBytes_eq (v : Validation) : validationBytes v = resultByte v :: failurePart v := by cases v <;> rfl

theorem failurePart_length (v : Validation) : (failurePart v).length = 4 := by cases v <;> rfl

theorem timingBytes_eq (t : Timing) :
    timingBytes t = natHalf t.confirmTime ++ natHalf t.clearHold ++ natHalf t.silenceTime
      ++ natHalf (if t.autoAlarm then 1 else 0) ++ natHalf t.hystAbs ++ natHalf t.hystPct ++ natHalf t.phaseUnit
      ++ natHalf t.takeoverWait := by
  unfold timingBytes
  simp only [show List.range 8 = [0, 1, 2, 3, 4, 5, 6, 7] from rfl, List.flatMap_cons, List.flatMap_nil, List.append_nil,
    List.append_assoc]
  rfl

theorem strapByte_toNat (s : State) :
    (strapByte s).toNat = s.link.speed.toNat + (if s.pair.enabled then 4 else 0) + (if s.pair.role = .b then 8 else 0) := by
  have speed := s.link.speed.isLt
  unfold strapByte natByte
  rw [BitVec.toNat_ofNat, Nat.mod_eq_of_lt]
  split <;> split <;> omega

theorem countIndex_le (n : Nat) (p : Fin n → Bool) : countIndex n p ≤ n := by
  unfold countIndex
  exact List.countP_le_length.trans (List.length_finRange).le

theorem pollCount_some (plan : Vector SlotKind 100) :
    pollCount (some plan) = countIndex 100 fun k => decide (∃ h, look plan k = .poll h) := by
  refine congrArg (countIndex 100) (funext fun k => ?_)
  split
  · next h e => exact (decide_eq_true ⟨h, e⟩).symm
  · next no => exact (decide_eq_false fun ⟨h, e⟩ => no h e).symm

/-! ## GET POINT -/

theorem zoneCode_eq (z : Option ZoneId) :
    optionalIndexCode z = match z with | some z => natByte z.val | none => 0xFF := by cases z <;> rfl

theorem arrowCode_eq (a : Option ArrowId) :
    optionalIndexCode a = match a with | some k => natByte k.val | none => 0xFF := by cases a <;> rfl

theorem pointKindCode_eq (k : PointKind) : pointKindCode k = if k = .exit then 1 else 0 := by cases k <;> rfl

theorem routeBytes_eq (r : Route) :
    routeBytes r
      = [routeStatusCode r.status] ++ natWord ((r.best.map Pair.smoke).getD 0) ++ natWord ((r.best.map Pair.walk).getD 0)
        ++ natHalf ((r.next.map Fin.val).getD 0) ++ [natByte ((r.target.map Fin.val).getD 0)] := by
  obtain ⟨status, best, next, target⟩ := r
  unfold routeBytes
  simp only [List.append_assoc]
  cases best <;> cases next <;> cases target <;> rfl

section Indexed
variable {index : Byte} {s : State}

theorem getPoint_badIndex (h : 240 ≤ index.toNat) : getPoint index s = refuse .badIndex s := by
  unfold getPoint; rw [indexOf_none.mpr h]

theorem getPoint_some {p : PointId} (h : index.toNat = p.val) : getPoint index s = answer (pointBytes s p) s := by
  unfold getPoint; rw [indexOf_some h]

theorem getZone_badIndex (h : 64 ≤ index.toNat) : getZone index s = refuse .badIndex s := by
  unfold getZone; rw [indexOf_none.mpr h]

theorem getZone_some {z : ZoneId} (h : index.toNat = z.val) : getZone index s = answer (zoneBytes s z) s := by
  unfold getZone; rw [indexOf_some h]

theorem getExit_badIndex (h : 24 ≤ index.toNat) : getExit index s = refuse .badIndex s := by
  unfold getExit; rw [indexOf_none.mpr h]

theorem getExit_some {e : ExitId} (h : index.toNat = e.val) : getExit index s = answer (exitBytes s e) s := by
  unfold getExit; rw [indexOf_some h]

theorem getHead_badIndex (h : 64 ≤ index.toNat) : getHead index s = refuse .badIndex s := by
  unfold getHead; rw [indexOf_none.mpr h]

theorem getHead_some {k : HeadId} (h : index.toNat = k.val) : getHead index s = answer (headBytes s k) s := by
  unfold getHead; rw [indexOf_some h]

end Indexed

/-! ## GET HEAD -/

/-- A display that may be absent, as GET HEAD shows it (Table 11.4). -/
def shownBytes (d : Option Display) : List Byte :=
  match d with
  | some d =>
    [displayKindCode d.kind, match d.arrow with | some k => natByte k.val | none => 0xFF, natByte d.script.val,
      natByte d.phase.val]
  | none => [0, 0, 0, 0]

theorem optionalDisplayBytes_eq (d : Option Display) : optionalDisplayBytes d = shownBytes d := by
  cases d with
  | none => rfl
  | some d =>
    unfold optionalDisplayBytes displayBytes; dsimp only
    rw [arrowCode_eq]; rfl

theorem testBit_packFlags (l : List Bool) (i : Nat) : (packFlags l).testBit i = l.getD i false := by
  induction l generalizing i with
  | nil => exact Nat.zero_testBit i
  | cons b l ih =>
    have cons : packFlags (b :: l) = Nat.bit b (packFlags l) := by
      unfold packFlags; rw [Nat.bit_val, List.foldr_cons]; cases b <;> simp [Nat.add_comm]
    rw [cons]
    cases i with
    | zero => exact Nat.testBit_bit_zero ..
    | succ i => rw [Nat.testBit_bit_succ, ih]; rfl

theorem getLsbD_packFlags (l : List Bool) {i : Nat} (h : i < 8) : (natByte (packFlags l)).getLsbD i = l.getD i false := by
  unfold natByte
  rw [BitVec.getLsbD_ofNat, testBit_packFlags]; simp [h]

theorem queuePosition_none {q : List Entry} {h : HeadId} (no : ∀ e ∈ q, e.head ≠ h) : queuePosition q h = 0 := by
  have missing : q.findIdx? (fun e => e.head == h) = none :=
    List.findIdx?_eq_none_iff.mpr fun e m => beq_eq_false_iff_ne.mpr (no e m)
  unfold queuePosition; rw [missing]

theorem queuePosition_append {before after : List Entry} {e : Entry} {h : HeadId} (own : e.head = h)
    (no : ∀ x ∈ before, x.head ≠ h) : queuePosition (before ++ e :: after) h = before.length + 1 := by
  have missing : before.findIdx? (fun e => e.head == h) = none :=
    List.findIdx?_eq_none_iff.mpr fun e m => beq_eq_false_iff_ne.mpr (no e m)
  have found : (before ++ e :: after).findIdx? (fun e => e.head == h) = some before.length := by
    rw [List.findIdx?_append, missing, List.findIdx?_cons]; simp [own]
  unfold queuePosition; rw [found]

end Sys2Proof.Machine

namespace Sys2Proof.Proofs

open Sys2Proof Sys2Proof.Machine

/-- Settles O54: each query answers its layout, with the fields that have a form of their own taken one by one. -/
theorem queriesReport : Obligations.QueriesReport := by
  unfold Obligations.QueriesReport
  refine ⟨fun tag s hr => ?_, fun tag index s hr => ?_, fun tag index s hr => ?_⟩
  · have data : statusBytes (begun s) = statusBytes s := rfl
    refine ⟨resultByte s.map.lastValidation, strapByte s, natByte (pollCount s.bus.plan), failurePart s.map.lastValidation,
      serves_answer rfl (exec_getStatus tag s) hr ?_, failurePart_length _, strapByte_toNat s, fun none => ?_,
      fun plan e => ?_, ?_⟩
    · unfold getStatus; rw [data]
      congr 1
      unfold statusBytes
      rw [validationBytes_eq, timingBytes_eq]
      simp only [List.append_assoc, List.cons_append, List.nil_append]
      rfl
    · rw [none]; rfl
    · rw [e, pollCount_some, natByte, BitVec.toNat_ofNat, Nat.mod_eq_of_lt]
      exact (countIndex_le 100 _).trans_lt (by decide)
    · cases s.map.lastValidation <;> exact ⟨rfl, rfl⟩
  · have point := exec_getPoint tag index s
    have zone := exec_getZone tag index s
    have exit := exec_getExit tag index s
    refine ⟨fun h => refuses_by rfl point hr (getPoint_badIndex h), fun h => refuses_by rfl zone hr (getZone_badIndex h),
      fun h => refuses_by rfl exit hr (getExit_badIndex h), fun p h => ?_, fun z h => ?_, fun e h => ?_⟩
    · refine serves_answer rfl point hr ((getPoint_some h).trans (congrArg (answer · (begun s)) ?_))
      unfold pointBytes
      rw [pointKindCode_eq, zoneCode_eq, routeBytes_eq]
      simp only [List.append_assoc, List.cons_append, List.nil_append]
      rfl
    · refine serves_answer rfl zone hr ((getZone_some h).trans (congrArg (answer · (begun s)) ?_))
      rfl
    · refine serves_answer rfl exit hr ((getExit_some h).trans (congrArg (answer · (begun s)) ?_))
      rfl
  · have head := exec_getHead tag index s
    refine ⟨fun h => refuses_by rfl head hr (getHead_badIndex h), fun h hi => ?_, ?_⟩
    · refine ⟨headFlags s h, natByte (queuePosition s.queue h),
        serves_answer rfl head hr ((getHead_some hi).trans (congrArg (answer · (begun s)) ?_)),
        getLsbD_packFlags _ (by decide), getLsbD_packFlags _ (by decide), getLsbD_packFlags _ (by decide),
        getLsbD_packFlags _ (by decide), getLsbD_packFlags _ (by decide), getLsbD_packFlags _ (by decide),
        getLsbD_packFlags _ (by decide), getLsbD_packFlags _ (by decide), fun no => ?_, fun before e after q own no => ?_⟩
      · show headBytes s h = _
        unfold headBytes
        simp only [optionalDisplayBytes_eq, List.append_assoc, List.cons_append, List.nil_append]
        rfl
      · rw [queuePosition_none no]; rfl
      · rw [q, queuePosition_append own no]
    · exact serves_answer rfl (exec_getStrangers tag s) hr rfl

end Sys2Proof.Proofs
end

section
/-! The pairs of a run: their order, what one relaxation and one sweep do to them, and that a sweep which changes nothing
leaves the best pairs (R51 to R55). -/

namespace Sys2Proof.Machine

/-! ## The order of pairs (R51) -/

theorem Pair.better_iff {a b : Pair} :
    a.better b = true ↔ a.smoke < b.smoke ∨ a.smoke = b.smoke ∧ a.walk < b.walk := by simp [Pair.better]

theorem Pair.not_better_iff {a b : Pair} :
    a.better b = false ↔ b.smoke < a.smoke ∨ b.smoke = a.smoke ∧ b.walk ≤ a.walk := by
  rw [Bool.eq_false_iff, ne_eq, better_iff]; omega

theorem Pair.not_better_self (a : Pair) : a.better a = false := not_better_iff.mpr (.inr ⟨rfl, le_refl _⟩)

theorem Pair.not_better_trans {a b c : Pair} (h : a.better b = false) (k : b.better c = false) : a.better c = false := by
  rw [not_better_iff] at h k ⊢; omega

theorem Pair.better_trans {a b c : Pair} (h : a.better b = true) (k : b.better c = true) : a.better c = true := by
  rw [better_iff] at h k ⊢; omega

theorem Pair.not_better_of_better {a b : Pair} (h : a.better b = true) : b.better a = false := by
  rw [better_iff] at h; rw [not_better_iff]; omega

/-- Of two pairs neither of which is better there is only one. -/
theorem Pair.eq_of_not_better {a b : Pair} (h : a.better b = false) (k : b.better a = false) : a = b := by
  rw [not_better_iff] at h k
  obtain ⟨smoke, walk⟩ := a
  obtain ⟨smoke', walk'⟩ := b
  simp only [Pair.mk.injEq] at h k ⊢; omega

theorem Pair.add_not_better_add {a b : Pair} (h : b.better a = false) (step : Pair) :
    (b.add step).better (a.add step) = false := by
  rw [not_better_iff] at h ⊢; simp only [Pair.add]; omega

/-- No step leads to a better pair. -/
theorem Pair.add_not_better_self (a step : Pair) : (a.add step).better a = false := by
  rw [not_better_iff]; simp only [Pair.add]; omega

/-- A step with a walk cost leads to a worse pair. -/
theorem Pair.better_add {step : Pair} (h : 0 < step.walk) (a : Pair) : a.better (a.add step) = true := by
  rw [better_iff]; simp only [Pair.add]; omega

theorem noWorse_self (b : Pair) : noWorse (some b) b := ⟨b, rfl, b.not_better_self⟩

theorem noWorse.trans {o : Option Pair} {a b : Pair} (h : noWorse o a) (k : b.better a = false) : noWorse o b := by
  obtain ⟨c, e, h⟩ := h
  exact ⟨c, e, Pair.not_better_trans k h⟩

theorem noWorse_of_not_betterThan {o : Option Pair} {a : Pair} (h : a.betterThan o = false) : noWorse o a := by
  cases o with
  | none => cases h
  | some b => exact ⟨b, rfl, h⟩

/-- A pair better than an entry is no worse than what the entry was no worse than. -/
theorem noWorse_of_betterThan {o : Option Pair} {a b : Pair} (h : noWorse o b) (k : a.betterThan o = true) :
    noWorse (some a) b := by
  obtain ⟨c, rfl, h⟩ := h
  exact ⟨a, rfl, Pair.not_better_trans h (Pair.not_better_of_better k)⟩

/-! ## Ways along an aisle (R53, R57) -/

/-- The ways along an aisle that joins two points. -/
theorem walkTo_eq_some {a : Aisle} {passage : Passage} {p q : PointId} :
    walkTo a passage p = some q ↔
      a.endA ≠ a.endB
        ∧ (a.endA = p ∧ a.endB = q ∧ passage.fromA = true ∨ a.endB = p ∧ a.endA = q ∧ passage.fromB = true) := by
  unfold walkTo
  by_cases joined : a.endA = a.endB
  · simp [joined]
  · rw [if_neg joined]
    by_cases atA : a.endA = p
    · subst atA
      cases passage.fromA <;> simp [joined, Ne.symm joined]
    · by_cases atB : a.endB = p <;> cases passage.fromB <;> simp [joined, atA, atB]

/-- People at `v` may walk along a usable aisle of the snapshot to `u`. -/
def LeadsTo (map : MapStore) (sn : Snapshot) (x : AisleId) (v u : PointId) : Prop :=
  (look sn.aisles x).usable = true ∧ walkTo (look map.aisles x) (look sn.aisles x).passage v = some u

/-! ## One relaxation (R53) -/

theorem relax_cases (step : Pair) (v u : PointId) (w : Pairs × Bool) :
    relax step v u w = w ∧ (∀ a, look w.1 u = some a → (a.add step).betterThan (look w.1 v) = false)
    ∨ ∃ a, look w.1 u = some a ∧ (a.add step).betterThan (look w.1 v) = true
        ∧ relax step v u w = (store w.1 v (some (a.add step)), true) := by
  unfold relax
  cases e : look w.1 u with
  | none => exact .inl ⟨rfl, nofun⟩
  | some a =>
    by_cases better : (a.add step).betterThan (look w.1 v) = true
    · exact .inr ⟨a, rfl, better, if_pos better⟩
    · refine .inl ⟨if_neg better, fun b same => ?_⟩
      cases same; simpa using better

/-- Relaxing a point from itself changes nothing. -/
theorem relax_self (step : Pair) (p : PointId) (w : Pairs × Bool) : relax step p p w = w := by
  rcases relax_cases step p p w with ⟨same, -⟩ | ⟨a, e, better, -⟩
  · exact same
  · rw [e, Pair.betterThan, Pair.add_not_better_self] at better; cases better

theorem relax_flag {step : Pair} {v u : PointId} {w : Pairs × Bool} (h : w.2 = true) : (relax step v u w).2 = true := by
  rcases relax_cases step v u w with ⟨same, -⟩ | ⟨a, -, -, new⟩
  · rw [same]; exact h
  · rw [new]

/-- Where the flag stays clear nothing was to be relaxed. -/
theorem relax_quiet {step : Pair} {v u : PointId} {w : Pairs × Bool} (h : (relax step v u w).2 = false) :
    relax step v u w = w ∧ ∀ a, look w.1 u = some a → (a.add step).betterThan (look w.1 v) = false := by
  rcases relax_cases step v u w with quiet | ⟨a, -, -, new⟩
  · exact quiet
  · rw [new] at h; cases h

/-! ## One aisle of a sweep (R53) -/

/-- What relaxations along an aisle keep, the aisle's part of a sweep keeps. -/
theorem sweepAisle_induct {P : Pairs × Bool → Prop} {map : MapStore} {sn : Snapshot} {x : AisleId} {w : Pairs × Bool}
    (h : P w) (along : ∀ v u w, LeadsTo map sn x v u → P w → P (relax (aisleStep map sn x) v u w)) :
    P (sweepAisle map sn x w) := by
  unfold sweepAisle; dsimp only
  by_cases usable : (look sn.aisles x).usable = true
  · rw [if_pos usable]
    by_cases joined : (look map.aisles x).endA = (look map.aisles x).endB
    · simp only [joined, relax_self, ite_self]; exact h
    · have forward (a : (look sn.aisles x).passage.fromA = true) :
          LeadsTo map sn x (look map.aisles x).endA (look map.aisles x).endB :=
        ⟨usable, walkTo_eq_some.mpr ⟨joined, .inl ⟨rfl, rfl, a⟩⟩⟩
      have backward (b : (look sn.aisles x).passage.fromB = true) :
          LeadsTo map sn x (look map.aisles x).endB (look map.aisles x).endA :=
        ⟨usable, walkTo_eq_some.mpr ⟨joined, .inr ⟨rfl, rfl, b⟩⟩⟩
      have first : P (if (look sn.aisles x).passage.fromA then
          relax (aisleStep map sn x) (look map.aisles x).endA (look map.aisles x).endB w else w) := by
        split
        · next a => exact along _ _ _ (forward a) h
        · exact h
      split
      · next b => exact along _ _ _ (backward b) first
      · exact first
  · rw [if_neg usable]; exact h

theorem sweepAisle_flag {map : MapStore} {sn : Snapshot} {x : AisleId} {w : Pairs × Bool} (h : w.2 = true) :
    (sweepAisle map sn x w).2 = true :=
  sweepAisle_induct (P := fun w => w.2 = true) h fun _ _ _ _ k => relax_flag k

/-- No relaxation along an aisle would change the pairs. -/
def SettledAt (map : MapStore) (sn : Snapshot) (pairs : Pairs) (x : AisleId) : Prop :=
  ∀ v u a, LeadsTo map sn x v u → look pairs u = some a →
    (a.add (aisleStep map sn x)).betterThan (look pairs v) = false

theorem sweepAisle_quiet {map : MapStore} {sn : Snapshot} {x : AisleId} {w : Pairs × Bool}
    (h : (sweepAisle map sn x w).2 = false) : sweepAisle map sn x w = w ∧ SettledAt map sn w.1 x := by
  have clear {v u : PointId} {w : Pairs × Bool} (h : (relax (aisleStep map sn x) v u w).2 = false) : w.2 = false := by
    by_contra set
    rw [relax_flag (by simpa using set)] at h; cases h
  unfold sweepAisle at h ⊢
  unfold SettledAt LeadsTo
  simp only [walkTo_eq_some]
  dsimp only at h ⊢
  by_cases usable : (look sn.aisles x).usable = true
  · by_cases a : (look sn.aisles x).passage.fromA = true <;> by_cases b : (look sn.aisles x).passage.fromB = true <;>
      simp only [usable, a, b, if_true] at h ⊢
    · obtain ⟨same, toB⟩ := relax_quiet h
      obtain ⟨first, toA⟩ := relax_quiet (clear h)
      rw [first] at same toB
      rw [first]
      refine ⟨same, ?_⟩
      rintro v u c ⟨-, -, ⟨rfl, rfl, -⟩ | ⟨rfl, rfl, -⟩⟩ e
      · exact toA c e
      · exact toB c e
    · obtain ⟨same, toA⟩ := relax_quiet h
      refine ⟨same, ?_⟩
      rintro v u c ⟨-, -, ⟨rfl, rfl, -⟩ | ⟨-, -, no⟩⟩ e
      · exact toA c e
      · exact absurd no nofun
    · obtain ⟨same, toB⟩ := relax_quiet h
      refine ⟨same, ?_⟩
      rintro v u c ⟨-, -, ⟨-, -, no⟩ | ⟨rfl, rfl, -⟩⟩ e
      · exact absurd no nofun
      · exact toB c e
    · refine ⟨rfl, ?_⟩
      rintro v u c ⟨-, -, ⟨-, -, no⟩ | ⟨-, -, no⟩⟩ <;> exact absurd no nofun
  · rw [if_neg usable]
    exact ⟨rfl, fun v u c along => absurd along.1 usable⟩

/-! ## One sweep (R53, R54) -/

/-- What relaxations along aisles keep, a sweep keeps. -/
theorem sweepTable_induct {P : Pairs × Bool → Prop} {map : MapStore} {sn : Snapshot} {pairs : Pairs}
    (h : P (pairs, false))
    (along : ∀ x v u w, LeadsTo map sn x v u → P w → P (relax (aisleStep map sn x) v u w)) :
    P (sweepTable map sn pairs) :=
  forEach_induct (sweepAisle map sn) _ h fun x _ k => sweepAisle_induct k (along x)

theorem foldl_sweepAisle_quiet {map : MapStore} {sn : Snapshot} (xs : List AisleId) {w : Pairs × Bool}
    (h : (xs.foldl (fun w x => sweepAisle map sn x w) w).2 = false) :
    xs.foldl (fun w x => sweepAisle map sn x w) w = w ∧ ∀ x ∈ xs, SettledAt map sn w.1 x := by
  induction xs generalizing w with
  | nil => exact ⟨rfl, nofun⟩
  | cons y ys ih =>
    rw [List.foldl_cons] at h ⊢
    have first : (sweepAisle map sn y w).2 = false := by
      by_contra set
      have stays := foldl_induct (P := fun w : Pairs × Bool => w.2 = true) (fun w x => sweepAisle map sn x w) ys
        (sweepAisle map sn y w) (by simpa using set) fun _ _ k => sweepAisle_flag k
      rw [stays] at h; cases h
    obtain ⟨same, settled⟩ := sweepAisle_quiet first
    rw [same] at h ⊢
    obtain ⟨all, rest⟩ := ih h
    exact ⟨all, List.forall_mem_cons.mpr ⟨settled, rest⟩⟩

/-- A sweep that sets no flag changes no pair, and no relaxation is left (R54). -/
theorem sweepTable_quiet {map : MapStore} {sn : Snapshot} {pairs : Pairs} (h : (sweepTable map sn pairs).2 = false) :
    sweepTable map sn pairs = (pairs, false) ∧ ∀ x, SettledAt map sn pairs x := by
  unfold sweepTable forEach at h ⊢
  obtain ⟨same, settled⟩ := foldl_sweepAisle_quiet _ h
  exact ⟨same, fun x => settled x (List.mem_finRange x)⟩

/-! ## Sound and best pairs (R55) -/

/-- Every pair is the cost of a route in the snapshot, and no worse than the source pair of its point (R52, R55). -/
structure PairsSound (map : MapStore) (sn : Snapshot) (pairs : Pairs) : Prop where
  attained : ∀ p b, look pairs p = some b → Walk map sn p b
  sources : ∀ p b, look (initialPairs map sn) p = some b → noWorse (look pairs p) b

theorem initialPairs_sound (map : MapStore) (sn : Snapshot) : PairsSound map sn (initialPairs map sn) :=
  ⟨Walk.start, fun _ b e => e ▸ noWorse_self b⟩

theorem PairsSound.relax {map : MapStore} {sn : Snapshot} {x : AisleId} {v u : PointId} {w : Pairs × Bool}
    (h : PairsSound map sn w.1) (along : LeadsTo map sn x v u) :
    PairsSound map sn (relax (aisleStep map sn x) v u w).1 := by
  rcases relax_cases (aisleStep map sn x) v u w with ⟨same, -⟩ | ⟨a, e, better, new⟩
  · rw [same]; exact h
  · rw [new]
    refine ⟨fun p b => ?_, fun p b source => ?_⟩ <;> dsimp only <;> rw [look_store] <;> split
    · rintro ⟨⟩
      next at_v => exact at_v ▸ .step v u x a along.1 along.2 (h.attained u a e)
    · exact h.attained p b
    · next at_v => exact noWorse_of_betterThan (at_v ▸ h.sources p b source) better
    · exact h.sources p b source

theorem PairsSound.sweepTable {map : MapStore} {sn : Snapshot} {pairs : Pairs} (h : PairsSound map sn pairs) :
    PairsSound map sn (sweepTable map sn pairs).1 :=
  sweepTable_induct (P := fun w => PairsSound map sn w.1) h fun _ _ _ _ along k => k.relax along

theorem RunSound.pairs {s : State} (h : RunSound s) {sn : Snapshot} (e : s.engine.snapshot = some sn) :
    PairsSound s.map sn s.engine.pairs := ⟨fun p b => h.attained sn p b e, fun p b => h.sources sn p b e⟩

/-- Where no relaxation is left, no route is better than the pair of its point. -/
theorem Walk.noWorse {map : MapStore} {sn : Snapshot} {pairs : Pairs} (sound : PairsSound map sn pairs)
    (settled : ∀ x, SettledAt map sn pairs x) {p : PointId} {b : Pair} (route : Walk map sn p b) :
    noWorse (look pairs p) b := by
  induction route with
  | start p b h => exact sound.sources p b h
  | step p q x b usable along _ ih =>
    obtain ⟨a, e, best⟩ := ih
    exact (noWorse_of_not_betterThan (settled x p q a ⟨usable, along⟩ e)).trans (Pair.add_not_better_add best _)

/-- When selection begins with the change mark clear no relaxation is left (R54). -/
theorem RunSound.settledAt {s : State} (h : RunSound s) {sn : Snapshot} (run : s.engine.run = .selecting)
    (e : s.engine.snapshot = some sn) (mark : s.engine.changeMark = false) (x : AisleId) :
    SettledAt s.map sn s.engine.pairs x :=
  (sweepTable_quiet (by rw [h.settled sn e run mark])).2 x

end Sys2Proof.Machine

namespace Sys2Proof.Proofs

open Sys2Proof Sys2Proof.Machine

/-- Settles O36: with no relaxation left, an induction on the route shows that none is better than the pair. -/
theorem bestPairsAreBest : Obligations.BestPairsAreBest := by
  unfold Obligations.BestPairsAreBest
  intro s sn sound run snapshot mark p
  have best {other : Pair} (route : Walk s.map sn p other) : noWorse (look s.engine.pairs p) other :=
    route.noWorse (sound.pairs snapshot) (sound.settledAt run snapshot mark)
  refine ⟨fun b e => ⟨sound.attained sn p b snapshot e, fun other route => ?_⟩, fun none other route => ?_⟩
  · obtain ⟨a, same, k⟩ := best route
    cases e.symm.trans same; exact k
  · obtain ⟨a, some, -⟩ := best route
    rw [none] at some; cases some

end Sys2Proof.Proofs
end

section
/-! The ends of a sweep, of selection and of publication (R53 to R58, R60 to R62, R65, R67). -/

namespace Sys2Proof.Machine

/-! ## The end of a sweep -/

theorem startRun_startsRun (s : State) : StartsRun s (startRun s) := startsRun_of rfl rfl rfl rfl

theorem endSweep_idle {s : State} (h : s.engine.run ≠ .sweeping) : endSweep s = s := by
  unfold endSweep; split
  · next e _ => exact absurd e h
  · rfl

section Sweep
variable {s : State} {sn : Snapshot} (run : s.engine.run = .sweeping) (snapshot : s.engine.snapshot = some sn)
include run snapshot

theorem endSweep_abandons (mark : s.engine.abandonMark = true) : endSweep s = abandonRun s := by
  unfold endSweep; rw [run, snapshot]; exact if_pos mark

theorem endSweep_goesOn (mark : s.engine.abandonMark = false) (changed : (sweepTable s.map sn s.engine.pairs).2 = true)
    (more : s.engine.sweep < Config.sweepLimit) :
    endSweep s = { s with engine := { s.engine with
      pairs := (sweepTable s.map sn s.engine.pairs).1, sweep := s.engine.sweep + 1, changeMark := false } } := by
  unfold endSweep; rw [run, snapshot]
  dsimp only
  rw [if_neg (by simp [mark]), if_pos (by simp [changed, more])]

theorem endSweep_selects (mark : s.engine.abandonMark = false)
    (last : (sweepTable s.map sn s.engine.pairs).2 = false ∨ Config.sweepLimit ≤ s.engine.sweep) :
    endSweep s = { s with engine := { s.engine with
      run := .selecting, pairs := (sweepTable s.map sn s.engine.pairs).1
      changeMark := (sweepTable s.map sn s.engine.pairs).2 } } := by
  unfold endSweep; rw [run, snapshot]
  dsimp only
  rw [if_neg (by simp [mark]), if_neg (by rcases last with e | e <;> simp [e])]

end Sweep

/-! ## Candidates and next aisles (R57, R58) -/

section Candidates
variable {map : MapStore} {sn : Snapshot} {pairs : Pairs} {p : PointId} {b : Pair} {x : AisleId}

theorem candidatePair_eq_some {c : Pair} :
    candidatePair map sn pairs p b x = some c ↔
      (look sn.aisles x).usable = true
        ∧ ∃ q bq, walkTo (look map.aisles x) (look sn.aisles x).passage p = some q ∧ look pairs q = some bq
          ∧ bq.better b = true ∧ c = bq.add (aisleStep map sn x) := by
  unfold candidatePair; dsimp only
  by_cases usable : (look sn.aisles x).usable = true
  · rw [if_pos usable]
    cases walkTo (look map.aisles x) (look sn.aisles x).passage p with
    | none => simp
    | some q =>
      cases e : look pairs q with
      | none => simp [e]
      | some bq =>
        by_cases better : bq.better b = true
        · simp [usable, e, better, eq_comm (a := c)]
        · simp [e, better]
  · simp [usable]

/-- The previous next aisle of a ROUTED point is kept where it is a candidate within the margin (R58). -/
theorem keptAisle_eq_some {previous : Route} :
    keptAisle map sn pairs previous p b = some x ↔
      previous.status = .routed ∧ previous.next = some x
        ∧ ∃ c, candidatePair map sn pairs p b x = some c ∧ c.smoke = b.smoke ∧ c.walk ≤ b.walk + margin sn b := by
  unfold keptAisle
  by_cases routed : previous.status = .routed
  · rw [if_pos routed]
    cases previous.next with
    | none => simp
    | some y =>
      dsimp only
      cases e : candidatePair map sn pairs p b y with
      | none =>
        refine ⟨nofun, ?_⟩
        rintro ⟨-, ⟨⟩, c, some, -⟩
        rw [e] at some; cases some
      | some c =>
        dsimp only
        split
        · next near =>
          refine ⟨?_, ?_⟩
          · rintro ⟨⟩; exact ⟨routed, rfl, c, e, near⟩
          · rintro ⟨-, ⟨⟩, -⟩; rfl
        · next far =>
          refine ⟨nofun, ?_⟩
          rintro ⟨-, ⟨⟩, d, same, near⟩
          cases e.symm.trans same; exact absurd near far
  · simp [routed]

theorem firstIndex_eq_some {n : Nat} {f : Fin n → Bool} {i : Fin n} (h : f i = true) (least : ∀ j, j < i → f j = false) :
    firstIndex n f = some i := by
  cases e : firstIndex n f with
  | none => rw [firstIndex_none.mp e i] at h; cases h
  | some j =>
    rcases lt_trichotomy j i with lt | rfl | lt
    · have := firstIndex_some e; rw [least j lt] at this; cases this
    · rfl
    · rw [firstIndex_least e lt] at h; cases h

/-- The next aisle chosen afresh is the lowest candidate whose pair is the best pair (R57). -/
theorem freshAisle_eq_some (h : candidatePair map sn pairs p b x = some b)
    (least : ∀ y, y < x → candidatePair map sn pairs p b y ≠ some b) : freshAisle map sn pairs p b = some x :=
  firstIndex_eq_some (by simp [h]) fun y lt => by simpa using least y lt

theorem ownExit_eq_some {e : ExitId} :
    ownExit map sn p b = some e ↔
      (look map.points p).kind = .exit ∧ exitAt map p = some e ∧ look sn.sources e = some b := by
  unfold ownExit
  by_cases kind : (look map.points p).kind = .exit
  · rw [if_pos kind]
    cases exitAt map p with
    | none => simp
    | some d =>
      dsimp only
      constructor
      · intro h
        split at h
        · next source => cases h; exact ⟨kind, rfl, source⟩
        · cases h
      · rintro ⟨-, ⟨⟩, source⟩; exact if_pos source
  · simp [kind]

end Candidates

/-! ## The record that a point gets (R56) -/

section Record
variable {map : MapStore} {sn : Snapshot} {pairs : Pairs} {published : RouteTable} {p : PointId}

theorem selectRoute_undefined (d : (look map.points p).defined = false) :
    selectRoute map sn pairs published p = Route.undefined := by
  unfold selectRoute; rw [if_neg (by simp [d])]

theorem selectRoute_noRoute (d : (look map.points p).defined = true) (e : look pairs p = none) :
    selectRoute map sn pairs published p = Route.noRoute := by
  unfold selectRoute; rw [if_pos d, e]

theorem selectRoute_exitHere {b : Pair} {x : ExitId} (d : (look map.points p).defined = true) (e : look pairs p = some b)
    (own : ownExit map sn p b = some x) :
    selectRoute map sn pairs published p = ⟨.exitHere, some b, none, some x⟩ := by
  unfold selectRoute; rw [if_pos d, e]; dsimp only; rw [own]

theorem selectRoute_routed {b : Pair} (d : (look map.points p).defined = true) (e : look pairs p = some b)
    (own : ownExit map sn p b = none) :
    selectRoute map sn pairs published p
      = ⟨.routed, some b, (keptAisle map sn pairs (look published p) p b).or (freshAisle map sn pairs p b), none⟩ := by
  unfold selectRoute; rw [if_pos d, e]; dsimp only; rw [own]

end Record

/-! ## The end of selection -/

theorem endSelection_idle {s : State} (h : s.engine.run ≠ .selecting) : endSelection s = s := by
  unfold endSelection; split
  · next e _ => exact absurd e h
  · rfl

section Selection
variable {s : State} {sn : Snapshot} (run : s.engine.run = .selecting) (snapshot : s.engine.snapshot = some sn)
include run snapshot

theorem endSelection_abandons (mark : s.engine.abandonMark = true) : endSelection s = abandonRun s := by
  unfold endSelection; rw [run, snapshot]; exact if_pos mark

theorem endSelection_selects (mark : s.engine.abandonMark = false) :
    endSelection s = { s with engine := { s.engine with
      run := .publishing, newTable := some (selectTable s.map sn s.engine.pairs s.engine.table) } } := by
  unfold endSelection; rw [run, snapshot]; exact if_neg (by simp [mark])

end Selection

/-! ## Publication (R61, R62) -/

theorem publish_idle {s : State} (h : s.engine.run ≠ .publishing) : publish s = s := by
  unfold publish; split
  · next e _ => exact absurd e h
  · rfl

theorem publish_publishing {s : State} {table : RouteTable} (run : s.engine.run = .publishing)
    (new : s.engine.newTable = some table) : publish s = afterPublication (publishTable table s) := by
  unfold publish; rw [run, new]

/-- The engine that a publication leaves before step 4 of R62. -/
def publishedEngine (table : RouteTable) (s : State) : Engine :=
  { s.engine with
    table := withTargets s.map table, digest := digestOf (withTargets s.map table), abandonCount := 0, firmMark := false }

/-- The ROUTES notice of a publication (R62). -/
def publicationNotice (table : RouteTable) (s : State) : Notice :=
  routesNotice (replaceTable (withTargets s.map table) s) (changedHeads (replaceTable (withTargets s.map table) s))

theorem publicationNotice_eq (table : RouteTable) (s : State) :
    publicationNotice table s
      = .routes (countStatus (withTargets s.map table) .routed) (countStatus (withTargets s.map table) .exitHere)
          (countStatus (withTargets s.map table) .noRoute) (countSmoke (withTargets s.map table))
          (changedHeads (replaceTable (withTargets s.map table) s)) s.engine.abandonCount
          (digestOf (withTargets s.map table)) := by
  unfold publicationNotice routesNotice
  generalize withTargets s.map table = full
  rfl

/-- A publication acts on the engine, the displays and the link (R62 steps 1 to 3). -/
theorem publishTable_eq (table : RouteTable) (s : State) :
    ∃ d q, recomputeAll (replaceTable (withTargets s.map table) s)
        = { replaceTable (withTargets s.map table) s with selector := { s.selector with desired := d }, queue := q }
      ∧ publishTable table s = { s with
          engine := publishedEngine table s, selector := { s.selector with desired := d }, queue := q
          link := offerLink (publicationNotice table s) s.link } := by
  unfold publishTable publicationNotice publishedEngine
  generalize withTargets s.map table = full
  obtain ⟨d, q, e⟩ := recomputeAll_frame (replaceTable full s)
  refine ⟨d, q, e, ?_⟩
  dsimp only
  rw [e]; rfl

/-- A display follows the published table, not the run (R72 to R79). -/
theorem displayFor_engine {s : State} {g : Engine} (h : g.table = s.engine.table) (l : Link) (k : HeadId) :
    displayFor { s with engine := g, link := l } k = displayFor s k := by
  unfold displayFor routeOf
  dsimp only
  rw [h]; rfl

theorem Recomputed.engine {s t : State} (h : Recomputed s t) {g : Engine} (table : g.table = t.engine.table) (l : Link) :
    Recomputed s { t with engine := g, link := l } := by
  obtain ⟨wants, takes⟩ := h
  refine ⟨fun k => ?_, ?_⟩
  · rw [displayFor_engine table]; exact wants k
  · unfold queueTakes at takes ⊢
    simp only [displayFor_engine table]; exact takes

/-- What a publication leaves, whatever the engine goes on with. -/
theorem publishTable_recomputed (table : RouteTable) (s : State) {g : Engine}
    (h : g.table = withTargets s.map table) : Recomputed s { publishTable table s with engine := g } := by
  obtain ⟨d, q, e, published⟩ := publishTable_eq table s
  have shown : Recomputed s (recomputeAll (replaceTable (withTargets s.map table) s)) :=
    recomputed_from (u := replaceTable (withTargets s.map table) s) rfl rfl (recomputeAll_recomputed _)
  rw [e] at shown
  rw [published]
  exact shown.engine h _

/-- The part after publication, but for the run that it starts or not. -/
theorem afterPublication_cases (s : State) :
    ∃ g, afterPublication s = { s with engine := g } ∧ g.table = s.engine.table
      ∧ (s.engine.pendingFlag = true → StartsRun s (afterPublication s))
      ∧ (s.engine.pendingFlag = false → g = idleEngine s.engine) := by
  unfold afterPublication
  by_cases pending : s.engine.pendingFlag = true
  · rw [if_pos pending]
    exact ⟨_, rfl, rfl, fun _ => startRun_startsRun s, fun no => by rw [pending] at no; cases no⟩
  · rw [if_neg pending]
    exact ⟨_, rfl, rfl, fun yes => absurd yes pending, fun _ => rfl⟩

end Sys2Proof.Machine

namespace Sys2Proof.Proofs

open Sys2Proof Sys2Proof.Machine

/-- Settles O35: one equation of the sweep's end for each of its cases. -/
theorem sweepEnd : Obligations.SweepEnd := by
  unfold Obligations.SweepEnd
  intro s
  refine ⟨fun h => (exec_sweepEnd s).trans (by rw [endSweep_idle h]), fun sn run snapshot => ?_⟩
  refine ⟨_, exec_sweepEnd s, ?_, fun mark => ?_, fun mark changed more => ?_, fun mark last => ?_⟩
  · obtain ⟨g, e⟩ := endSweep_frame s
    rw [e]
  · rw [endSweep_abandons run snapshot mark]; exact startRun_startsRun _
  · rw [endSweep_goesOn run snapshot mark changed more]
  · rw [endSweep_selects run snapshot mark last]

/-- Settles O37: the record of each point by R56's cases, its next aisle kept or chosen afresh. -/
theorem selectionEnd : Obligations.SelectionEnd := by
  unfold Obligations.SelectionEnd
  intro s
  refine ⟨fun h => (exec_selectionEnd s).trans (by rw [endSelection_idle h]), fun sn run snapshot => ?_⟩
  intro offers near exitHere
  have candidate {p b x c} : candidatePair s.map sn s.engine.pairs p b x = some c ↔ offers p b x c :=
    candidatePair_eq_some
  have kept {p b x} : keptAisle s.map sn s.engine.pairs (look s.engine.table p) p b = some x ↔
      (look s.engine.table p).status = .routed ∧ (look s.engine.table p).next = some x ∧ near p b x := by
    simp only [keptAisle_eq_some, candidate]; rfl
  refine ⟨_, exec_selectionEnd s, ?_, fun mark => ?_, fun mark => ?_⟩
  · obtain ⟨g, e⟩ := endSelection_frame s
    rw [e]
  · rw [endSelection_abandons run snapshot mark]; exact startRun_startsRun _
  · refine ⟨_, by rw [endSelection_selects run snapshot mark], fun p => ?_⟩
    unfold selectTable
    rw [look_tabulate]
    refine ⟨fun d => selectRoute_undefined d, fun d => ⟨fun none => selectRoute_noRoute d none, fun b e => ⟨?_, ?_⟩⟩⟩
    · exact fun k own => selectRoute_exitHere d e (ownExit_eq_some.mpr own)
    · intro notHere
      have away : ownExit s.map sn p b = none :=
        Option.eq_none_iff_forall_ne_some.mpr fun k own => notHere k (ownExit_eq_some.mp own)
      rw [selectRoute_routed d e away]
      refine ⟨fun x routed next within => ?_, fun x far best least => ?_⟩
      · rw [kept.mpr ⟨routed, next, within⟩]; rfl
      · have notKept : keptAisle s.map sn s.engine.pairs (look s.engine.table p) p b = none :=
          Option.eq_none_iff_forall_ne_some.mpr fun y k => by
            obtain ⟨routed, next, within⟩ := kept.mp k
            exact far y routed next within
        rw [notKept, freshAisle_eq_some (candidate.mpr best) fun y lt k => least y lt (candidate.mp k)]; rfl

/-- Settles O39: the publication in closed form, then the run that follows it or not. -/
theorem publication : Obligations.Publication := by
  unfold Obligations.Publication
  intro s
  refine ⟨fun h => (exec_publication s).trans (by rw [publish_idle h]), fun table run new => ?_⟩
  obtain ⟨d, q, -, published⟩ := publishTable_eq table s
  obtain ⟨g, after, same, starts, rests⟩ := afterPublication_cases (publishTable table s)
  have engine : (publishTable table s).engine = publishedEngine table s := by rw [published]
  rw [engine] at same starts rests
  refine ⟨_, (exec_publication s).trans (by rw [publish_publishing run new]), ?_, ?_, ?_, ?_, ?_⟩
  · rw [after]; exact publishTable_recomputed table s same
  · rw [after, published, publicationNotice_eq]; rfl
  · intro pending
    have started := starts pending
    unfold StartsRun at started ⊢
    rw [started, engine]; rfl
  · intro pending
    rw [after, rests pending]; rfl
  · rw [after, published]; rfl

end Sys2Proof.Proofs
end

section
/-! Every step keeps the digest with the table, the engine at rest outside GUARD and ALARM, and the working pairs of a run
sound (R46, R47, R54, R55, R67, R70). -/

namespace Sys2Proof.Machine

/-! ## Maps that give the same ways -/

/-- The second map has the first one's exits, and its aisles with blocked flags aside. -/
structure SameWays (m m' : MapStore) : Prop where
  exits : m'.exits = m.exits
  aisles : ∀ x, { look m'.aisles x with blocked := (look m.aisles x).blocked } = look m.aisles x

theorem SameWays.refl (m : MapStore) : SameWays m m := ⟨rfl, fun _ => rfl⟩

section Ways
variable {m m' : MapStore} (h : SameWays m m')
include h

theorem SameWays.initialPairs (sn : Snapshot) : initialPairs m' sn = initialPairs m sn := by
  unfold Machine.initialPairs; rw [h.exits]

theorem SameWays.aisleStep (sn : Snapshot) (x : AisleId) : aisleStep m' sn x = aisleStep m sn x := by
  unfold Machine.aisleStep; rw [← h.aisles x]

theorem SameWays.walkTo (x : AisleId) (passage : Passage) (p : PointId) :
    walkTo (look m'.aisles x) passage p = walkTo (look m.aisles x) passage p := by
  rw [← h.aisles x]; rfl

theorem SameWays.sweepTable (sn : Snapshot) (pairs : Pairs) : sweepTable m' sn pairs = sweepTable m sn pairs := by
  have same : sweepAisle m' sn = sweepAisle m sn := by
    funext x w
    unfold sweepAisle; rw [h.aisleStep, ← h.aisles x]
  unfold Machine.sweepTable; rw [same]

theorem SameWays.walk {sn : Snapshot} {p : PointId} {b : Pair} (route : Walk m sn p b) : Walk m' sn p b := by
  induction route with
  | start p b source => exact .start p b (by rw [h.initialPairs]; exact source)
  | step p q x b usable along _ ih =>
    rw [← h.aisleStep]
    exact .step p q x b usable (by rw [h.walkTo]; exact along) ih

end Ways

/-! ## The two invariants together -/

/-- The engine and its run are sound. -/
structure RoutesSound (s : State) : Prop where
  engine : EngineSound s
  run : RunSound s

/-- With no snapshot there is no run to be sound. -/
theorem RunSound.idle {s : State} (h : s.engine.snapshot = none) : RunSound s := by
  have absent {sn : Snapshot} (e : s.engine.snapshot = some sn) : False := by rw [h] at e; cases e
  exact ⟨fun _ _ e => (absent e).elim, fun _ _ _ e => (absent e).elim, fun _ _ _ e => (absent e).elim,
    fun _ _ _ e => (absent e).elim, fun _ e => (absent e).elim⟩

/-- Only the engine, and at rest the cleared table, matter. -/
theorem EngineSound.congr {s t : State} (h : EngineSound s) (engine : t.engine = s.engine)
    (resting : routing t = false → t.engine.run = .idle ∧ t.engine.table = clearedTable t.map) : EngineSound t := by
  obtain ⟨digest, -, snapshot, newTable, abandons, firm, sweep⟩ := h
  rw [← engine] at digest snapshot newTable abandons firm sweep
  exact ⟨digest, resting, snapshot, newTable, abandons, firm, sweep⟩

theorem RunSound.congr {s t : State} (h : RunSound s) (ways : SameWays s.map t.map)
    (snapshot : t.engine.snapshot = s.engine.snapshot) (pairs : t.engine.pairs = s.engine.pairs)
    (settled : t.engine.run = .selecting → t.engine.changeMark = false →
      s.engine.run = .selecting ∧ s.engine.changeMark = false) : RunSound t := by
  refine ⟨fun sn x => ?_, fun sn e b => ?_, fun sn p b => ?_, fun sn p b => ?_, fun sn e run mark => ?_⟩
  · rw [snapshot]
    intro e usable
    have defined := h.usable sn x e usable
    rw [← ways.aisles x] at defined; exact defined
  · rw [snapshot, ways.exits]; exact h.exits sn e b
  · rw [snapshot, pairs]; exact fun e at_p => ways.walk (h.attained sn p b e at_p)
  · rw [snapshot, pairs, ways.initialPairs]; exact h.sources sn p b
  · obtain ⟨run, mark⟩ := settled run mark
    rw [snapshot] at e
    rw [pairs, ways.sweepTable]; exact h.settled sn e run mark

theorem clearedTable_points {m m' : MapStore} (points : m'.points = m.points) : clearedTable m' = clearedTable m := by
  unfold clearedTable; rw [points]

/-- Only the engine, the points, the ways and whether routes are computed matter. -/
theorem RoutesSound.congr {s t : State} (h : RoutesSound s) (engine : t.engine = s.engine)
    (points : t.map.points = s.map.points) (ways : SameWays s.map t.map) (routes : routing t = false → routing s = false) :
    RoutesSound t := by
  refine ⟨h.engine.congr engine fun r => ?_,
    h.run.congr ways (by rw [engine]) (by rw [engine]) (by rw [engine]; exact And.intro)⟩
  rw [engine, clearedTable_points points]; exact h.engine.resting (routes r)

/-- An engine that is not IDLE computes routes (R70). -/
theorem RoutesSound.routes {s : State} (h : RoutesSound s) (run : s.engine.run ≠ .idle) : routing s = true := by
  by_contra r
  exact run (h.engine.resting (by simpa using r)).1

theorem RoutesSound.noSnapshot {s : State} (h : RoutesSound s) (idle : s.engine.run = .idle) : s.engine.snapshot = none := by
  by_contra e
  exact h.engine.snapshot.mp (Option.isSome_iff_ne_none.mpr e) idle

/-- Outside GUARD and ALARM the ways do not matter. -/
theorem RoutesSound.atRest {s t : State} (h : RoutesSound s) (rest : routing s = false) (engine : t.engine = s.engine)
    (points : t.map.points = s.map.points) : RoutesSound t := by
  have resting := h.engine.resting rest
  refine ⟨h.engine.congr engine fun _ => ?_, .idle ?_⟩
  · rw [engine, clearedTable_points points]; exact resting
  · rw [engine]; exact h.noSnapshot resting.1

/-- An IDLE engine that takes the cleared table of the map as it stands (R46, R47). -/
theorem RoutesSound.cleared {s t : State} (h : RoutesSound s) (idle : s.engine.run = .idle)
    (engine : t.engine = { s.engine with table := clearedTable t.map, digest := digestOf (clearedTable t.map) }) :
    RoutesSound t := by
  obtain ⟨-, -, snapshot, newTable, abandons, firm, sweep⟩ := h.engine
  refine ⟨⟨?_, fun _ => ?_, ?_, ?_, ?_, ?_, ?_⟩, .idle ?_⟩ <;> rw [engine]
  · exact ⟨idle, rfl⟩
  · exact snapshot
  · exact newTable
  · exact abandons
  · exact firm
  · exact sweep
  · exact h.noSnapshot idle

theorem hardReset_routes (speed : BitVec 2) (pairEn : Bool) (role : Role) (s : State) :
    RoutesSound (hardReset speed pairEn role s) := ⟨hardReset_engine .., hardReset_run ..⟩

/-- The engine of SETUP is sound in every mode (R68, R69). -/
theorem RoutesSound.resting {s : State} (h : s.engine = restingEngine s.map) : RoutesSound s :=
  (hardReset_routes 0 false .a s).cleared rfl h

theorem clearEngine_sound (s : State) : RoutesSound (clearEngine s) := .resting (by rw [clearEngine_eq])

/-- A run that starts is sound (R49, R52, R63, R67). -/
theorem startRun_sound {s : State} (routes : routing s = true) (digest : s.engine.digest = digestOf s.engine.table)
    (abandons : s.engine.abandonCount ≤ Config.firmCount) : RoutesSound (startRun s) := by
  refine ⟨⟨digest, fun r => ?_, ⟨fun _ => nofun, fun _ => rfl⟩, ⟨nofun, nofun⟩, abandons, fun _ => rfl,
    show 1 ≤ Config.sweepLimit by decide⟩, ⟨?_, ?_, ?_, ?_, fun _ _ => nofun⟩⟩
  · exact absurd (routes.symm.trans r) nofun
  · rintro sn x ⟨⟩ usable
    have usable : (look (tabulate 480 (snapAisle s)) x).usable = true := usable
    rw [look_tabulate] at usable
    exact (Bool.and_eq_true_iff.mp usable).1
  · rintro sn e b ⟨⟩ source
    have source : look (tabulate 24 (sourcePair s)) e = some b := source
    rw [look_tabulate] at source
    unfold sourcePair at source
    split at source
    · next available => exact (Bool.and_eq_true_iff.mp available).1
    · cases source
  · rintro sn p b ⟨⟩; exact (initialPairs_sound s.map (takeSnapshot s)).attained p b
  · rintro sn p b ⟨⟩; exact (initialPairs_sound s.map (takeSnapshot s)).sources p b

/-- A run in progress that starts anew is sound. -/
theorem RoutesSound.startRun {s : State} (h : RoutesSound s) (routes : routing s = true) : RoutesSound (startRun s) :=
  startRun_sound routes h.engine.digest h.engine.abandons

/-! ## Moves that keep the two invariants -/

/-- A move that keeps the engine and its run sound. -/
def RoutesKept (s t : State) : Prop := RoutesSound s → RoutesSound t

theorem RoutesKept.refl (s : State) : RoutesKept s s := id

theorem RoutesKept.trans {s t u : State} (h : RoutesKept s t) (k : RoutesKept t u) : RoutesKept s u := k ∘ h

theorem RoutesKept.after {s t u : State} (k : RoutesKept t u) (h : RoutesKept s t) : RoutesKept s u := k ∘ h

theorem RoutesKept.forEach {n : Nat} (f : Fin n → State → State) (h : ∀ i s, RoutesKept s (f i s)) (s : State) :
    RoutesKept s (forEach n f s) := fun k => forEach_induct (P := RoutesSound) f s k h

theorem RoutesKept.foldl {β : Type} (f : State → β → State) (h : ∀ s b, RoutesKept s (f s b)) (l : List β) (s : State) :
    RoutesKept s (l.foldl f s) := fun k => foldl_induct (P := RoutesSound) f l s k h

/-- A move that leaves the engine, the map and the mode. -/
theorem RoutesKept.quiet {s t : State} (engine : t.engine = s.engine) (map : t.map = s.map) (mode : t.mode = s.mode) :
    RoutesKept s t := fun h =>
  h.congr engine (by rw [map]) (by rw [map]; exact .refl _) (by unfold routing; rw [mode]; exact id)

theorem HeadsMove.routes {s t : State} (h : HeadsMove s t) : RoutesKept s t := by
  obtain ⟨m, d, q, l, rfl⟩ := h
  exact .quiet rfl rfl rfl

theorem BusMove.routes {s t : State} (h : BusMove s t) : RoutesKept s t := by
  obtain ⟨⟨m, d, q, l, b, p, dv, hd, n, rfl⟩, -, -⟩ := h
  exact .quiet rfl rfl rfl

/-- A move of the mode, the settings, the blocked flags and the validation result (R151). -/
theorem ModeMove.routes {s t : State} (k : ModeMove s t) (engine : t.engine = s.engine)
    (routes : routing t = false → routing s = false) : RoutesKept s t := fun h =>
  h.congr engine k.kept.points ⟨k.kept.exits, k.aisles⟩ routes

theorem setZoneRt_routes (z : ZoneId) (r : ZoneRt) (s : State) : RoutesKept s (setZoneRt z r s) := .quiet rfl rfl rfl
theorem setExitRt_routes (e : ExitId) (r : ExitRt) (s : State) : RoutesKept s (setExitRt e r s) := .quiet rfl rfl rfl
theorem offer_routes (n : Notice) (s : State) : RoutesKept s (offer n s) := .quiet rfl rfl rfl
theorem reachTime_routes (n : Nat) (s : State) : RoutesKept s (reachTime n s) := .quiet rfl rfl rfl

theorem requestAlarm_routes (z : ZoneId) (s : State) : RoutesKept s (requestAlarm z s) := by
  obtain ⟨a, h⟩ := requestAlarm_frame z s
  rw [h]; exact .quiet rfl rfl rfl

theorem recomputeAll_routes (s : State) : RoutesKept s (recomputeAll s) := by
  obtain ⟨d, q, h⟩ := recomputeAll_frame s
  rw [h]; exact .quiet rfl rfl rfl

/-! ## Changes handed to the engine (R44, R63, R64) -/

/-- A busy engine takes a change by its pending flag or its abandon mark, which a firm run does not take (Table 3.6). -/
theorem markChange_frame (c : ChangeClass) (g : Engine) :
    ∃ pending abandon, markChange c g = { g with pendingFlag := pending, abandonMark := abandon }
      ∧ (g.firmMark = true → abandon = g.abandonMark) := by
  unfold markChange; split
  · exact ⟨_, _, rfl, fun _ => rfl⟩
  · exact ⟨_, _, rfl, fun _ => rfl⟩
  · split
    · exact ⟨_, _, rfl, fun _ => rfl⟩
    · next loose => exact ⟨_, _, rfl, fun firm => absurd firm loose⟩

theorem handChange_routes (c : ChangeClass) (s : State) : RoutesKept s (handChange c s) := by
  intro h
  unfold handChange; split
  · next routes =>
    split
    · exact h.startRun routes
    · obtain ⟨pending, abandon, e, firmly⟩ := markChange_frame c s.engine
      obtain ⟨⟨digest, resting, snapshot, newTable, abandons, firm, sweep⟩, run⟩ := h
      rw [e]
      exact ⟨⟨digest, resting, snapshot, newTable, abandons, fun f => (firmly f).trans (firm f), sweep⟩,
        run.congr (.refl _) rfl rfl And.intro⟩
  · exact h

theorem handIf_routes (c : Option ChangeClass) (s : State) : RoutesKept s (handIf c s) := by
  cases c with
  | none => exact .refl s
  | some c => exact handChange_routes c s

/-! ## Exits and the gate scanner -/

theorem reevalExit_routes (hand : Bool) (e : ExitId) (s : State) : RoutesKept s (reevalExit hand e s) := by
  unfold reevalExit; dsimp only; split
  · have noticed := (setExitRt_routes e { exitOf s e with available := availabilityOf s e } s).trans
      (offer_routes (exitNotice (setExitRt e { exitOf s e with available := availabilityOf s e } s) e) _)
    split
    · exact noticed.trans (handChange_routes _ _)
    · exact noticed
  · exact .refl s

theorem reevalExits_routes (hand : Bool) (s : State) : RoutesKept s (reevalExits hand s) :=
  .forEach _ (reevalExit_routes hand) s

theorem reevalZoneExits_routes (z : ZoneId) (s : State) : RoutesKept s (reevalZoneExits z s) :=
  .forEach _ (fun e s => by split; exacts [reevalExit_routes true e s, .refl s]) s

theorem takeContact_routes (e : ExitId) (c : ContactState) (s : State) : RoutesKept s (takeContact e c s) :=
  (reevalExit_routes true e _).after (setExitRt_routes e _ s)

theorem handContact_routes (p : PositionId) (s : State) : RoutesKept s (handContact p s) :=
  .forEach _ (fun e s => by split; exacts [takeContact_routes _ _ _, .refl s]) s

theorem copyContact_routes (e : ExitId) (s : State) : RoutesKept s (copyContact e s) := by
  unfold copyContact; split
  · split
    · exact takeContact_routes _ _ _
    · exact .refl s
  · exact .refl s

theorem gateScan_routes (levels : BitVec 32) (s : State) : RoutesKept s (gateScan levels s) := by
  have scanned : RoutesKept s { s with scanner := settleScan (scanRuns levels s.scanner) } := .quiet rfl rfl rfl
  exact scanned.trans ((RoutesKept.foldl _ (fun s p => handContact_routes p s) _ _).trans (.forEach _ copyContact_routes _))

theorem exitOverride_routes (index value : Byte) (s : State) : RoutesKept s (exitOverride index value s).state := by
  unfold exitOverride; split
  · exact .refl s
  · split
    · exact .refl s
    · split
      · exact .refl s
      · exact (reevalExit_routes true _ _).after (setExitRt_routes _ _ s)

theorem exitBias_routes (index : Byte) (value : Half) (s : State) : RoutesKept s (exitBias index value s).state := by
  have write (e : ExitId) (b : Nat) : RoutesKept s (writeBias e b s) := by
    have written := setExitRt_routes e { exitOf s e with bias := b } s
    unfold writeBias; dsimp only; split
    · split
      · exact written.trans (handChange_routes _ _)
      · exact written
    · exact written
  unfold exitBias; split
  · exact .refl s
  · split
    · exact .refl s
    · exact write _ _

/-! ## Zones -/

theorem changeZone_routes (z : ZoneId) (new : ZoneState) (cause : ZoneCause) (s : State) :
    RoutesKept s (changeZone z new cause s) := by
  have moved := (setZoneRt_routes z { zoneOf s z with state := new } s).trans
    ((offer_routes (.zone z (zoneOf s z).state new (zoneOf (setZoneRt z { zoneOf s z with state := new } s) z).lastReading cause)
      _).trans ((handIf_routes (zoneClass (zoneOf s z).state new) _).trans (reevalZoneExits_routes z _)))
  unfold changeZone; dsimp only; split
  · exact moved.trans (requestAlarm_routes z _)
  · exact moved

/-- A timer or a reading is written, and the zone's state changes. -/
theorem changeZone_written_routes (z : ZoneId) (r : ZoneRt) (new : ZoneState) (cause : ZoneCause) (s : State) :
    RoutesKept s (changeZone z new cause (setZoneRt z r s)) :=
  (setZoneRt_routes z r s).trans (changeZone_routes z new cause _)

theorem judgeClear_routes (z : ZoneId) (level : Byte) (s : State) : RoutesKept s (judgeClear z level s) := by
  unfold judgeClear; split
  · split
    · exact changeZone_written_routes z _ _ _ s
    · exact changeZone_routes z _ _ s
  · exact .refl s

theorem judgeSuspect_routes (z : ZoneId) (level : Byte) (s : State) : RoutesKept s (judgeSuspect z level s) := by
  unfold judgeSuspect; split
  · exact changeZone_written_routes z _ _ _ s
  · split
    · exact setZoneRt_routes z _ s
    · split
      · exact setZoneRt_routes z _ s
      · exact .refl s

theorem judge_routes (z : ZoneId) (level : Byte) (s : State) : RoutesKept s (judge z level s) := by
  unfold judge; split
  · exact judgeClear_routes z level s
  · exact judgeSuspect_routes z level s
  · split
    · exact .refl s
    · exact changeZone_written_routes z _ _ _ s
  · split
    · exact changeZone_written_routes z _ _ _ s
    · exact .refl s
  · exact (changeZone_routes z _ _ s).trans (judgeClear_routes z level _)

theorem takeReading_routes (z : ZoneId) (level : Byte) (s : State) : RoutesKept s (takeReading z level s) := by
  have judged := (setZoneRt_routes z { zoneOf s z with lastReading := some level } s).trans (judge_routes z level _)
  unfold takeReading restartSilence; split
  · exact judged.trans (setZoneRt_routes z _ _)
  · exact judged

theorem takeReadings_routes (entries : List (Byte × Byte)) (s : State) : RoutesKept s (takeReadings entries s).2 := by
  induction entries generalizing s with
  | nil => exact .refl s
  | cons e rest ih =>
    unfold takeReadings; split
    · exact (takeReading_routes _ _ s).trans (ih _)
    · exact ih s

theorem zoneReadings_routes (entries : List (Byte × Byte)) (s : State) : RoutesKept s (zoneReadings entries s).state := by
  unfold zoneReadings; split
  · exact .refl s
  · exact takeReadings_routes entries s

theorem confirmZone_routes (index : Byte) (s : State) : RoutesKept s (confirmZone index s).state := by
  have stopped (z : ZoneId) : RoutesKept s (stopTimers z s) := .quiet rfl rfl rfl
  unfold confirmZone; split
  · exact .refl s
  · dsimp only [taken]; split
    · exact stopped _
    · exact (stopped _).trans (changeZone_routes _ _ _ _)

theorem confirmExpiry_routes (z : ZoneId) (s : State) : RoutesKept s (confirmExpiry z s) := by
  unfold confirmExpiry; split
  · exact .refl s
  · next t _ =>
    have stopped : RoutesKept s (stopConfirm z (reachTime t s)) := .quiet rfl rfl rfl
    dsimp only; split
    · exact stopped.trans (changeZone_written_routes z _ _ _ _)
    · exact stopped

theorem clearHoldExpiry_routes (z : ZoneId) (s : State) : RoutesKept s (clearHoldExpiry z s) := by
  unfold clearHoldExpiry; split
  · exact .refl s
  · next t _ =>
    have stopped : RoutesKept s (stopClearHold z (reachTime t s)) := .quiet rfl rfl rfl
    dsimp only; split
    · split
      · exact stopped.trans (changeZone_written_routes z _ _ _ _)
      · exact stopped.trans (changeZone_routes z _ _ _)
    · exact stopped

theorem silenceExpiry_routes (z : ZoneId) (s : State) : RoutesKept s (silenceExpiry z s) := by
  unfold silenceExpiry; split
  · exact .refl s
  · next t _ =>
    have stopped : RoutesKept s (stopSilence z (reachTime t s)) := .quiet rfl rfl rfl
    dsimp only; split
    · exact stopped.trans (changeZone_written_routes z _ _ _ _)
    · exact stopped

/-! ## The route engine -/

/-- A run given up starts anew, one higher in its abandon count, which is at most 3 (R65, R67). -/
theorem RoutesSound.abandonRun {s : State} (h : RoutesSound s) (routes : routing s = true) : RoutesSound (abandonRun s) :=
  startRun_sound routes h.engine.digest (Nat.min_le_left _ _)

/-- New working pairs of a run over the same map and snapshot. -/
theorem RunSound.withPairs {s t : State} (h : RunSound s) {sn : Snapshot} (held : s.engine.snapshot = some sn)
    (map : t.map = s.map) (snapshot : t.engine.snapshot = s.engine.snapshot) (pairs : PairsSound s.map sn t.engine.pairs)
    (settled : t.engine.run = .selecting → t.engine.changeMark = false →
      sweepTable s.map sn t.engine.pairs = (t.engine.pairs, false)) : RunSound t := by
  refine ⟨fun sn x => ?_, fun sn e b => ?_, fun sn' p b e => ?_, fun sn' p b e => ?_, fun sn' e => ?_⟩
  · rw [snapshot, map]; exact h.usable sn x
  · rw [snapshot, map]; exact h.exits sn e b
  all_goals
    rw [snapshot, held] at e
    cases e
    rw [map]
  · exact pairs.attained p b
  · exact pairs.sources p b
  · exact settled

theorem endSweep_routes (s : State) : RoutesKept s (endSweep s) := by
  intro h
  by_cases run : s.engine.run = .sweeping
  · have busy : s.engine.run ≠ .idle := by rw [run]; nofun
    obtain ⟨sn, snapshot⟩ := Option.isSome_iff_exists.mp (h.engine.snapshot.mpr busy)
    have swept := (h.run.pairs snapshot).sweepTable
    obtain ⟨digest, resting, held, newTable, abandons, firm, sweep⟩ := h.engine
    cases mark : s.engine.abandonMark
    · by_cases more : (sweepTable s.map sn s.engine.pairs).2 = true ∧ s.engine.sweep < Config.sweepLimit
      · rw [endSweep_goesOn run snapshot mark more.1 more.2]
        generalize (sweepTable s.map sn s.engine.pairs).1 = pairs at swept
        exact ⟨⟨digest, resting, held, newTable, abandons, firm, more.2⟩,
          h.run.withPairs snapshot rfl rfl swept fun selecting => absurd (run.symm.trans selecting) nofun⟩
      · have last : (sweepTable s.map sn s.engine.pairs).2 = false ∨ Config.sweepLimit ≤ s.engine.sweep := by
          rw [not_and_or, Bool.not_eq_true, not_lt] at more; exact more
        have quiet : (sweepTable s.map sn s.engine.pairs).2 = false →
            sweepTable s.map sn (sweepTable s.map sn s.engine.pairs).1 = ((sweepTable s.map sn s.engine.pairs).1, false) :=
          fun clear => by rw [(sweepTable_quiet clear).1]; exact (sweepTable_quiet clear).1
        rw [endSweep_selects run snapshot mark last]
        generalize sweepTable s.map sn s.engine.pairs = w at swept quiet
        exact ⟨⟨digest, fun r => absurd (resting r).1 busy, ⟨fun _ => nofun, fun _ => held.mpr busy⟩,
            ⟨fun new => absurd (run.symm.trans (newTable.mp new)) nofun, nofun⟩, abandons, firm, sweep⟩,
          h.run.withPairs snapshot rfl rfl swept fun _ => quiet⟩
    · rw [endSweep_abandons run snapshot mark]
      exact h.abandonRun (h.routes busy)
  · rw [endSweep_idle run]; exact h

theorem endSelection_routes (s : State) : RoutesKept s (endSelection s) := by
  intro h
  by_cases run : s.engine.run = .selecting
  · have busy : s.engine.run ≠ .idle := by rw [run]; nofun
    obtain ⟨sn, snapshot⟩ := Option.isSome_iff_exists.mp (h.engine.snapshot.mpr busy)
    obtain ⟨digest, resting, held, newTable, abandons, firm, sweep⟩ := h.engine
    cases mark : s.engine.abandonMark
    · rw [endSelection_selects run snapshot mark]
      generalize selectTable s.map sn s.engine.pairs s.engine.table = table
      exact ⟨⟨digest, fun r => absurd (resting r).1 busy, ⟨fun _ => nofun, fun _ => held.mpr busy⟩,
          ⟨fun _ => rfl, fun _ => rfl⟩, abandons, firm, sweep⟩,
        h.run.withPairs snapshot rfl rfl (h.run.pairs snapshot) nofun⟩
    · rw [endSelection_abandons run snapshot mark]
      exact h.abandonRun (h.routes busy)
  · rw [endSelection_idle run]; exact h

/-- An engine that enters IDLE in GUARD or ALARM keeps its table (R45, R62 step 4). -/
theorem idleEngine_sound {s t : State} (engine : t.engine = idleEngine s.engine) (routes : routing t = true)
    (digest : s.engine.digest = digestOf s.engine.table) (abandons : s.engine.abandonCount ≤ Config.firmCount) :
    RoutesSound t := by
  refine ⟨⟨?_, fun r => absurd (routes.symm.trans r) nofun, ?_, ?_, ?_, ?_, ?_⟩, .idle ?_⟩ <;> rw [engine]
  · exact digest
  · exact ⟨nofun, fun busy => absurd rfl busy⟩
  · exact ⟨nofun, nofun⟩
  · exact abandons
  · exact nofun
  · exact Nat.zero_le _
  · rfl

theorem afterPublication_sound {s : State} (routes : routing s = true) (digest : s.engine.digest = digestOf s.engine.table)
    (abandons : s.engine.abandonCount ≤ Config.firmCount) : RoutesSound (afterPublication s) := by
  unfold afterPublication; split
  · exact startRun_sound routes digest abandons
  · exact idleEngine_sound rfl routes digest abandons

theorem publish_routes (s : State) : RoutesKept s (publish s) := by
  intro h
  unfold publish; split
  · next table run _ =>
    obtain ⟨d, q, -, published⟩ := publishTable_eq table s
    have engine : (publishTable table s).engine = publishedEngine table s := by rw [published]
    have digest : (publishTable table s).engine.digest = digestOf (publishTable table s).engine.table := by
      rw [engine, publishedEngine]
    have abandons : (publishTable table s).engine.abandonCount ≤ Config.firmCount := by
      rw [engine]; exact Nat.zero_le _
    have routes : routing (publishTable table s) = true := by
      rw [published]; exact h.routes (by rw [run]; nofun)
    exact afterPublication_sound routes digest abandons
  · exact h

theorem disarmEngine_sound (s : State) : RoutesSound (disarmEngine s) := by
  unfold disarmEngine; split <;> exact clearEngine_sound _

/-! ## Modes, settings and blocked flags -/

theorem guardSilences_routes (s : State) : RoutesKept s (guardSilences s) := by
  refine .forEach _ (fun z t => ?_) s
  unfold guardSilence; split
  · exact setZoneRt_routes z _ t
  · exact .refl t

theorem enterGuard_routes (s : State) : RoutesKept s (enterGuard s) := by
  unfold enterGuard requestOnEntry; split
  · exact (guardSilences_routes s).trans (requestAlarm_routes _ _)
  · exact guardSilences_routes s

/-- A mode that computes routes, or a change between modes that do not, keeps the engine sound. -/
theorem setMode_routes {new : Mode} {s : State} (h : routing { s with mode := new } = true ∨ routing s = false) :
    RoutesKept s { s with mode := new } :=
  (ModeMove.write new s.map.validated s.map.lastValidation s).routes rfl fun r =>
    h.elim (fun routes => absurd (routes.symm.trans r) nofun) id

/-- A change of mode is sound where its action is (R151). -/
theorem changeMode_sound {new : Mode} {cause : ModeCause} {outcome : ModeOutcome} {zone : Option ZoneId}
    {act : State → State} {s : State}
    (h : RoutesSound (act (offer (.mode (some s.mode) new cause outcome zone) { s with mode := new }))) :
    RoutesSound (changeMode new cause outcome zone act s) := recomputeAll_routes _ h

/-- A change of mode whose action keeps the engine sound. -/
theorem changeMode_routes {new : Mode} {cause : ModeCause} {outcome : ModeOutcome} {zone : Option ZoneId}
    {act : State → State} {s : State} (mode : routing { s with mode := new } = true ∨ routing s = false)
    (h : ∀ u, RoutesKept u (act u)) : RoutesKept s (changeMode new cause outcome zone act s) := fun k =>
  changeMode_sound (h _ (offer_routes _ _ (setMode_routes mode k)))

/-- The flag and the result of validation are written (R11, R20). -/
theorem setResults_routes (v : Bool) (r : Validation) (s : State) :
    RoutesKept s { s with map := { s.map with validated := v, lastValidation := r } } :=
  (ModeMove.write s.mode v r s).routes rfl id

theorem completeValidation_routes (s : State) : RoutesKept s (completeValidation s) := by
  unfold completeValidation; split
  · next validating =>
    have rest : routing s = false := by simp [routing, validating]
    split
    · intro h
      have loaded (e : ExitId) (u : State) : RoutesKept u (loadBias e u) := by
        unfold loadBias; split
        · exact setExitRt_routes e _ u
        · exact .refl u
      have before := RoutesKept.forEach _ loaded _ (setResults_routes true .passed s h)
      unfold passValidation
      refine changeMode_sound (enterGuard_routes _ ?_)
      exact (offer_routes _ _ (setMode_routes (.inl rfl) before)).startRun rfl
    · exact (setResults_routes false _ s).trans (changeMode_routes (.inr rest) .refl)
  · exact .refl s

theorem autoAlarm_routes (s : State) : RoutesKept s (autoAlarm s) := by
  unfold autoAlarm; split
  · exact .refl s
  · next z rest _ =>
    have taken : RoutesKept s { s with alarmRequests := rest } := .quiet rfl rfl rfl
    dsimp only; split
    · exact taken.trans (changeMode_routes (.inl rfl) .refl)
    · exact taken

theorem arm_routes (s : State) : RoutesKept s (arm s).state := by
  unfold arm; split <;> dsimp only [taken, refuse]
  · next setup =>
    exact (setResults_routes s.map.validated .running s).trans
      (changeMode_routes (.inr (by simp [routing, setup])) .refl)
  · exact .refl s

theorem disarm_routes (s : State) : RoutesKept s (disarm s).state := by
  unfold disarm; split <;> dsimp only [taken, refuse]
  · exact fun _ => changeMode_sound (disarmEngine_sound _)
  · next validating =>
    exact (setResults_routes s.map.validated .cancelled s).trans
      (changeMode_routes (.inr (by simp [routing, validating])) .refl)
  · exact .refl s
  · exact .refl s

theorem alarm_routes (s : State) : RoutesKept s (alarm s).state := by
  unfold alarm; split <;> dsimp only [taken, refuse]
  · exact changeMode_routes (.inl rfl) .refl
  · exact .refl s

theorem standDown_routes (s : State) : RoutesKept s (standDown s).state := by
  unfold standDown; split
  · exact .refl s
  · split <;> dsimp only [taken, refuse]
    · exact .refl s
    · exact changeMode_routes (.inl rfl) enterGuard_routes

theorem setTiming_routes (setting : Byte) (value : Half) (s : State) : RoutesKept s (setTiming setting value s).state := by
  unfold setTiming; split
  · split
    · exact .refl s
    · next t _ =>
      have written : RoutesKept s { s with timing := t } := .quiet rfl rfl rfl
      dsimp only [taken]
      unfold storeTiming; dsimp only; split
      · exact written
      · exact written.trans (recomputeAll_routes _)
  · exact .refl s

theorem MonitorMove.routing {s t : State} (h : MonitorMove s t) : routing t = routing s := by
  obtain ⟨⟨z, a, sc, x, g, d, q, l, n, rfl⟩, -, -⟩ := h
  rfl

theorem restartGuard_routes (s : State) : RoutesKept s (restartGuard s) := by
  intro h
  unfold restartGuard; split
  · next guard =>
    refine (enterGuard_routes s h).startRun ?_
    rw [(enterGuard_monitor s).routing]; simp [routing, guard]
  · exact h

/-- RESTART puts the engine to rest in whatever mode it gives, and a run starts in GUARD (R69, R158). -/
theorem restart_routes (s : State) : RoutesKept s (restart s).state := by
  by_cases alarm : s.mode = .alarm
  · unfold restart; rw [if_pos alarm]; exact .refl s
  · rw [restart_eq s alarm]; dsimp only [taken]
    refine fun _ => changeMode_sound (restartGuard_routes _ (.resting ?_))
    unfold restartBlocks; rw [clearEngine_eq]; rfl

theorem writeBlocked_routes (x : AisleId) (b : Bool) (s : State) : RoutesKept s (writeBlocked x b s) := by
  have written := (setBlocked_modes x b s).routes rfl id
  unfold writeBlocked; split
  · exact .refl s
  · exact written.trans (handChange_routes _ _)

theorem blockAisle_routes (index : Half) (s : State) : RoutesKept s (blockAisle index s).state := by
  unfold blockAisle; split
  · exact .refl s
  · exact writeBlocked_routes _ _ s

theorem openAisle_routes (index : Half) (s : State) : RoutesKept s (openAisle index s).state := by
  unfold openAisle; split
  · exact .refl s
  · exact writeBlocked_routes _ _ s

/-! ## Map requests, which are taken in SETUP alone -/

/-- An accepted map request clears the flag and re-evaluates the exits (R11, R40). -/
theorem acceptMap_routes (s : State) : RoutesKept s (acceptMap s) :=
  (setResults_routes false s.map.lastValidation s).trans (reevalExits_routes true _)

/-- The cleared table follows a point that is written (R46). -/
theorem clearedTable_store (s : State) (p : PointId) (r : Point) :
    clearedTable (setPointRec p r s).map = store (clearedTable s.map) p (clearedRoute r) := by
  refine table_ext fun q => ?_
  unfold clearedTable setPointRec
  dsimp only
  rw [look_tabulate, look_store, look_store, look_tabulate]
  split <;> rfl

/-- A move of SETUP that leaves the engine, the points and the mode. -/
structure PointsKept (s t : State) : Prop where
  engine : t.engine = s.engine
  points : t.map.points = s.map.points
  mode : t.mode = s.mode

theorem PointsKept.refl (s : State) : PointsKept s s := ⟨rfl, rfl, rfl⟩

theorem PointsKept.trans {s t u : State} (h : PointsKept s t) (k : PointsKept t u) : PointsKept s u :=
  ⟨k.engine.trans h.engine, k.points.trans h.points, k.mode.trans h.mode⟩

theorem PointsKept.atRest {s t : State} (k : PointsKept s t) (rest : routing s = false) : RoutesKept s t := fun h =>
  h.atRest rest k.engine k.points

theorem HeadsMove.pointsKept {s t : State} (h : HeadsMove s t) : PointsKept s t := by
  obtain ⟨m, d, q, l, rfl⟩ := h
  exact ⟨rfl, rfl, rfl⟩

theorem unplace_pointsKept (h : HeadId) (s : State) : PointsKept s (unplace h s) := by
  unfold unplace; split
  · have written : PointsKept s (setPlacement h { placementOf s h with defined := false } s) := ⟨rfl, rfl, rfl⟩
    exact written.trans (enterAbsent_moves false h _).pointsKept
  · exact .refl s

theorem defineExitRt_pointsKept (d : Bool) (e : ExitId) (s : State) : PointsKept s (defineExitRt d e s) := by
  unfold defineExitRt; split <;> exact ⟨rfl, rfl, rfl⟩

theorem removeExitRt_pointsKept (e : ExitId) (s : State) : PointsKept s (removeExitRt e s) := by
  unfold removeExitRt; dsimp only; split <;> exact ⟨rfl, rfl, rfl⟩

theorem removeIfDefined_pointsKept (e : ExitId) (s : State) : PointsKept s (removeIfDefined e s) := by
  unfold removeIfDefined; split
  · exact removeExitRt_pointsKept e s
  · exact .refl s

theorem PointsKept.forEach {n : Nat} (f : Fin n → State → State) (h : ∀ i s, PointsKept s (f i s)) (s : State) :
    PointsKept s (forEach n f s) :=
  forEach_induct f s (.refl s) fun i t k => k.trans (h i t)

theorem emptyTables_engine (s : State) : (emptyTables s).engine = s.engine := by
  have removed : PointsKept s (Machine.forEach 24 removeIfDefined s) := .forEach removeIfDefined removeIfDefined_pointsKept s
  unfold emptyTables
  generalize Machine.forEach 24 removeIfDefined s = u at removed
  exact removed.engine

/-- Every edit of the map in SETUP keeps the cleared table with the points (R2, R12, R46). -/
theorem MapEdit.routes {s t : State} (k : MapEdit s t) (setup : s.mode = .setup) : RoutesKept s t := by
  have rest : routing s = false := by simp [routing, setup]
  have accepted {u : State} (k : PointsKept s u) : RoutesKept s (acceptMap u) :=
    (k.atRest rest).trans (acceptMap_routes u)
  cases k with
  | none => exact .refl s
  | point p r =>
    intro h
    obtain ⟨idle, table⟩ := h.engine.resting rest
    refine acceptMap_routes _ (h.cleared idle ?_)
    have follows : clearedTable (setPointRec p r s).map = store s.engine.table p (clearedRoute r) := by
      rw [clearedTable_store, table]
    have at_p : look (setPointRec p r s).map.points p = r := look_store_same ..
    have engine : (setPointRec p r s).engine = s.engine := rfl
    unfold followPoint replaceTable; dsimp only
    rw [at_p, follows, engine]
  | aisle x r _ => exact accepted ⟨rfl, rfl, rfl⟩
  | defineExit e r _ =>
    exact accepted (.trans (t := setExitRec e r s) ⟨rfl, rfl, rfl⟩ (defineExitRt_pointsKept _ e _))
  | removeExit e =>
    exact accepted (.trans (t := setExitRec e _ s) ⟨rfl, rfl, rfl⟩ (removeExitRt_pointsKept e _))
  | defineZone z r _ => refine accepted ?_; split <;> exact ⟨rfl, rfl, rfl⟩
  | removeZone z => exact accepted ⟨rfl, rfl, rfl⟩
  | place h r _ => exact accepted ⟨rfl, rfl, rfl⟩
  | unplace h => exact accepted (unplace_pointsKept h s)
  | clear =>
    intro h
    have undone : PointsKept s (Machine.forEach 64 Machine.unplace s) := .forEach Machine.unplace unplace_pointsKept s
    have emptied := (emptyTables_engine (Machine.forEach 64 Machine.unplace s)).trans undone.engine
    unfold clearedMap replaceTable
    generalize emptyTables (Machine.forEach 64 Machine.unplace s) = u at emptied
    refine h.cleared (h.engine.resting rest).1 ?_
    dsimp only; rw [emptied]
  | script i steps _ =>
    have written : RoutesKept s (acceptMap (writeScript i steps s)) := accepted ⟨rfl, rfl, rfl⟩
    exact written.trans ((HeadsMove.forEach reloadHead reloadHead_moves _).routes.trans (recomputeAll_routes _))
  | kindMap i n =>
    have written : RoutesKept s (acceptMap (writeKindMap i n s)) := accepted ⟨rfl, rfl, rfl⟩
    exact written.trans (recomputeAll_routes _)

/-! ## Every command -/

theorem requestAct_modes_routes {i : Instr} (s : State) (o : ownerOf i = .modes) : RoutesKept s (requestAct i s).state := by
  cases i
  case restart => exact restart_routes s
  case arm => exact arm_routes s
  case disarm => exact disarm_routes s
  case alarm => exact alarm_routes s
  case standDown => exact standDown_routes s
  case setTiming => exact setTiming_routes _ _ s
  case blockAisle => exact blockAisle_routes _ s
  case openAisle => exact openAisle_routes _ s
  case validationComplete | autoAlarmRequest => exact .refl s
  all_goals exact absurd o nofun

theorem requestAct_monitors_routes {i : Instr} (s : State) (o : ownerOf i = .monitors) :
    RoutesKept s (requestAct i s).state := by
  have same {t : State} (e : t = s) : RoutesKept s t := e ▸ .refl s
  cases i
  case zoneReadings => exact zoneReadings_routes _ s
  case confirmZone => exact confirmZone_routes _ s
  case exitOverride => exact exitOverride_routes _ _ s
  case exitBias => exact exitBias_routes _ _ s
  case setNoticeFilter =>
    show RoutesKept s (setNoticeFilter _ s).state
    unfold setNoticeFilter; split <;> exact .quiet rfl rfl rfl
  case clearNoticeLoss => exact .quiet rfl rfl rfl
  case getPoint => exact same (getPoint_state _ s)
  case getZone => exact same (getZone_state _ s)
  case getExit => exact same (getExit_state _ s)
  case getHead => exact same (getHead_state _ s)
  case getStatus | getStrangers | confirmTimerExpiry | clearHoldExpiry | zoneSilenceExpiry | gateScan | sweepEnd
    | selectionEnd | publication | panelByteReceived | transmitFrameEnd | unknownType => exact .refl s
  all_goals exact absurd o nofun

theorem requestAct_routes (i : Instr) (s : State) : RoutesKept s (requestAct i s).state := by
  cases o : ownerOf i with
  | reset => rw [requestAct_reset s o]; exact .refl s
  | modes => exact requestAct_modes_routes s o
  | map =>
    rcases requestAct_map s o with e | ⟨setup, edit⟩
    · rw [e]; exact .refl s
    · exact edit.routes setup
  | bus => exact (requestAct_onBus s o).routes
  | monitors => exact requestAct_monitors_routes s o

theorem eventOf_monitors_routes {c : Instr} (s : State) (o : ownerOf c = .monitors) : RoutesKept s (eventOf c s) := by
  cases c
  case confirmTimerExpiry => exact confirmExpiry_routes _ s
  case clearHoldExpiry => exact clearHoldExpiry_routes _ s
  case zoneSilenceExpiry => exact silenceExpiry_routes _ s
  case gateScan => exact gateScan_routes _ s
  case sweepEnd => exact endSweep_routes s
  case selectionEnd => exact endSelection_routes s
  case publication => exact publish_routes s
  case zoneReadings | confirmZone | exitOverride | exitBias | setNoticeFilter | clearNoticeLoss | getPoint | getZone
    | getExit | getHead | getStatus | getStrangers | panelByteReceived | transmitFrameEnd | unknownType => exact .refl s
  all_goals exact absurd o nofun

theorem eventOf_modes_routes {c : Instr} (s : State) (o : ownerOf c = .modes) : RoutesKept s (eventOf c s) := by
  cases c
  case validationComplete => exact completeValidation_routes s
  case autoAlarmRequest => exact autoAlarm_routes s
  case restart | arm | disarm | alarm | standDown | setTiming | blockAisle | openAisle => exact .refl s
  all_goals exact absurd o nofun

theorem eventOf_routes (c : Instr) (s : State) : RoutesKept s (eventOf c s) := by
  cases o : ownerOf c with
  | reset =>
    obtain ⟨speed, pairEn, role, rfl⟩ := ownerOf_reset o
    exact fun _ => hardReset_routes ..
  | modes => exact eventOf_modes_routes s o
  | map => rw [eventOf_map s o]; exact .refl s
  | bus => exact (eventOf_onBus s o).routes
  | monitors => exact eventOf_monitors_routes s o

end Sys2Proof.Machine

namespace Sys2Proof.Proofs

open Sys2Proof Sys2Proof.Machine

/-- Settles O57: each request and each event of the part's own keeps the engine and its run sound. -/
theorem stepKeepsEngine : Obligations.StepKeepsEngine := by
  unfold Obligations.StepKeepsEngine
  rintro s t ⟨engine, run⟩ h
  have kept : RoutesSound t := step_keeps (P := RoutesSound) h ⟨engine, run⟩
    (fun s n => RoutesKept.quiet (s := s) (t := { s with now := n }) rfl rfl rfl)
    (fun s q => RoutesKept.quiet (s := s) (t := { s with pending := q }) rfl rfl rfl)
    (fun s l => RoutesKept.quiet (s := s) (t := { s with link := l }) rfl rfl rfl)
    requestAct_routes eventOf_routes
  exact ⟨kept.engine, kept.run⟩

end Sys2Proof.Proofs
end

section
/-! The published routes of a settled run arrive: each next aisle leads to a better pair, so that following them ends at an
exit after fewer than 240 of them (R55, R57, R59, R60). -/

namespace Sys2Proof.Machine

/-! ## Step pairs and source pairs (R50, R52) -/

theorem walkCost_pos {length : Nat} (width : Nat) (h : 1 ≤ length) : 0 < walkCost length width := by
  have factor : 1 ≤ widthFactor width := by unfold widthFactor; split <;> decide
  have product : 1 * 1 ≤ length * widthFactor width := Nat.mul_le_mul h factor
  unfold walkCost; omega

theorem stepPair_walk_pos {length : Nat} (width : Nat) (hazard : Hazard) (h : 1 ≤ length) :
    0 < (stepPair length width hazard).walk := by
  have := walkCost_pos width h
  cases hazard <;> dsimp only [stepPair] <;> omega

theorem initialPairs_source {map : MapStore} {sn : Snapshot} {p : PointId} {b : Pair}
    (h : look (initialPairs map sn) p = some b) :
    ∃ e, look sn.sources e = some b ∧ (look map.exits e).point = p := by
  revert p b
  unfold initialPairs
  refine forEach_induct (P := fun pairs : Pairs => ∀ {p b}, look pairs p = some b →
    ∃ e, look sn.sources e = some b ∧ (look map.exits e).point = p) _ _ ?_ fun e pairs ih => ?_
  · intro p b h
    rw [look_replicate] at h; cases h
  · intro p b h
    split at h
    · next a source =>
      rw [look_store] at h
      split at h
      · next at_p => cases h; exact ⟨e, source, at_p⟩
      · exact ih h
    · exact ih h

/-! ## What checks 2 and 3 give (R15, Table 1.2) -/

theorem failureAt_none {n : Nat} {check : Nat} {table : FailTable} {i : Option (Fin n)} :
    failureAt check table i = none ↔ i = none := Option.map_eq_none_iff

theorem check2_ends {m : MapStore} (h : check2 m = none) {x : AisleId} (d : (look m.aisles x).defined = true) :
    pointDefined m (look m.aisles x).endA = true ∧ pointDefined m (look m.aisles x).endB = true := by
  have good : badAisle m x = false := firstIndex_none.mp (failureAt_none.mp h) x
  rw [Bool.eq_false_iff, ne_eq, badAisle_iff] at good
  by_contra missing
  exact good ⟨d, fun ⟨a, b, _⟩ => missing ⟨a, b⟩⟩

/-- A defined exit stands at an EXIT point, which names no other exit. -/
theorem check3_exitAt {m : MapStore} (h : check3 m = none) {e : ExitId} (d : (look m.exits e).defined = true) :
    (look m.points (look m.exits e).point).kind = .exit ∧ exitAt m (look m.exits e).point = some e := by
  obtain ⟨exits, points⟩ := Option.or_eq_none_iff.mp h
  have good : badExit m e = false := firstIndex_none.mp (failureAt_none.mp exits) e
  have here : isExitPoint m (look m.exits e).point = true := by
    unfold badExit at good; rw [d] at good; simpa using good
  have one : badExitPoint m (look m.exits e).point = false := firstIndex_none.mp (failureAt_none.mp points) _
  rw [Bool.eq_false_iff, ne_eq, badExitPoint_iff] at one
  have only : ∃! k, (look m.exits k).defined = true ∧ (look m.exits k).point = (look m.exits e).point := by
    by_contra several
    exact one ⟨here, several⟩
  have kind := (Bool.and_eq_true_iff.mp here).2
  refine ⟨by simpa using kind, ?_⟩
  cases found : exitAt m (look m.exits e).point with
  | none =>
    have missing := firstIndex_none.mp found e
    simp [d] at missing
  | some k =>
    have names := firstIndex_some found
    rw [Bool.and_eq_true, beq_iff_eq] at names
    rw [only.unique names ⟨d, rfl⟩]

/-! ## Settled runs -/

/-- The working pairs of a settled run over a map that passes checks 2 and 3. -/
structure SettledRun (map : MapStore) (sn : Snapshot) (pairs : Pairs) : Prop where
  sound : PairsSound map sn pairs
  settled : ∀ x, SettledAt map sn pairs x
  ends : ∀ x p q, LeadsTo map sn x p q → (look map.points q).defined = true
  walks : ∀ x, 0 < (aisleStep map sn x).walk
  exits : ∀ e b, look sn.sources e = some b →
    (look map.points (look map.exits e).point).kind = .exit ∧ exitAt map (look map.exits e).point = some e

theorem RunSound.settledRun {s : State} {sn : Snapshot} (h : RunSound s) (ranges : RangesSound s)
    (aisles : check2 s.map = none) (exits : check3 s.map = none) (run : s.engine.run = .selecting)
    (snapshot : s.engine.snapshot = some sn) (mark : s.engine.changeMark = false) :
    SettledRun s.map sn s.engine.pairs where
  sound := h.pairs snapshot
  settled := h.settledAt run snapshot mark
  ends x p q along := by
    obtain ⟨endA, endB⟩ := check2_ends aisles (h.usable sn x snapshot along.1)
    obtain ⟨-, ⟨-, rfl, -⟩ | ⟨-, rfl, -⟩⟩ := walkTo_eq_some.mp along.2
    · exact endB
    · exact endA
  walks x := stepPair_walk_pos _ _ (ranges.length x).1
  exits e b source := check3_exitAt exits (h.exits sn e b snapshot source)

section Settled
variable {map : MapStore} {sn : Snapshot} {pairs : Pairs} (h : SettledRun map sn pairs)
include h

/-- A point that is not at its own exit has a candidate whose pair is the best pair (R57, R59). -/
theorem SettledRun.freshAisle {p : PointId} {b : Pair} (best : look pairs p = some b) (away : ownExit map sn p b = none) :
    ∃ x, freshAisle map sn pairs p b = some x := by
  have candidate : ∃ x, candidatePair map sn pairs p b x = some b := by
    cases h.sound.attained p b best with
    | start _ _ source =>
      obtain ⟨e, own, rfl⟩ := initialPairs_source source
      obtain ⟨kind, at_p⟩ := h.exits e b own
      rw [ownExit_eq_some.mpr ⟨kind, at_p, own⟩] at away; cases away
    | step _ q x a usable along rest =>
      obtain ⟨bq, pair, least⟩ := rest.noWorse h.sound h.settled
      have relaxed : (bq.add (aisleStep map sn x)).better (a.add (aisleStep map sn x)) = false := by
        have quiet := h.settled x p q bq ⟨usable, along⟩ pair
        rw [best] at quiet; exact quiet
      have same := Pair.eq_of_not_better (Pair.add_not_better_add least _) relaxed
      refine ⟨x, candidatePair_eq_some.mpr ⟨usable, q, bq, along, pair, ?_, same⟩⟩
      rw [same]; exact Pair.better_add (h.walks x) bq
  obtain ⟨x, candidate⟩ := candidate
  refine Option.isSome_iff_exists.mp (Option.isSome_iff_ne_none.mpr fun none => ?_)
  have missing := firstIndex_none.mp none x
  rw [candidate] at missing; simp at missing

/-- The record of a defined point with a pair: at its own exit, or on an aisle to a better pair. -/
theorem SettledRun.record (published : RouteTable) {p : PointId} {b : Pair} (d : (look map.points p).defined = true)
    (best : look pairs p = some b) :
    (∃ e, exitAt map p = some e
      ∧ look (selectTable map sn pairs published) p = ⟨.exitHere, some b, none, some e⟩)
    ∨ ∃ x q bq, LeadsTo map sn x p q ∧ (look map.points q).defined = true ∧ look pairs q = some bq ∧ bq.better b = true
      ∧ look (selectTable map sn pairs published) p = ⟨.routed, some b, some x, none⟩ := by
  unfold selectTable
  rw [look_tabulate]
  cases own : ownExit map sn p b with
  | some e => exact .inl ⟨e, (ownExit_eq_some.mp own).2.1, selectRoute_exitHere d best own⟩
  | none =>
    obtain ⟨fresh, chosen⟩ := h.freshAisle best own
    have leads {x : AisleId} {c : Pair} (candidate : candidatePair map sn pairs p b x = some c)
        (next : (keptAisle map sn pairs (look published p) p b).or (Machine.freshAisle map sn pairs p b) = some x) :
        ∃ x q bq, LeadsTo map sn x p q ∧ (look map.points q).defined = true ∧ look pairs q = some bq
          ∧ bq.better b = true ∧ selectRoute map sn pairs published p = ⟨.routed, some b, some x, none⟩ := by
      obtain ⟨usable, q, bq, along, pair, better, -⟩ := candidatePair_eq_some.mp candidate
      refine ⟨x, q, bq, ⟨usable, along⟩, h.ends x p q ⟨usable, along⟩, pair, better, ?_⟩
      rw [selectRoute_routed d best own, next]
    cases kept : keptAisle map sn pairs (look published p) p b with
    | some x =>
      obtain ⟨-, -, c, candidate, -⟩ := keptAisle_eq_some.mp kept
      exact .inr (leads candidate (by rw [kept]; rfl))
    | none =>
      have candidate := firstIndex_some chosen
      exact .inr (leads (by simpa using candidate) (by rw [kept, chosen]; rfl))

end Settled

/-! ## Following next aisles (R60) -/

theorem farEnd_of_leadsTo {map : MapStore} {sn : Snapshot} {x : AisleId} {p q : PointId} (h : LeadsTo map sn x p q) :
    farEnd (look map.aisles x) p = q := by
  unfold farEnd
  obtain ⟨joined, ⟨rfl, rfl, -⟩ | ⟨rfl, rfl, -⟩⟩ := walkTo_eq_some.mp h.2
  · exact if_pos rfl
  · exact if_neg joined

theorem followNext_exitHere {map : MapStore} {table : RouteTable} {p : PointId} {b : Option Pair} {x : Option AisleId}
    {e : Option ExitId} (h : look table p = ⟨.exitHere, b, x, e⟩) (n : Nat) : followNext map table (n + 1) p = e := by
  unfold followNext; rw [h]

theorem followNext_routed {map : MapStore} {table : RouteTable} {p : PointId} {b : Option Pair} {x : AisleId}
    {e : Option ExitId} (h : look table p = ⟨.routed, b, some x, e⟩) (n : Nat) :
    followNext map table (n + 1) p = followNext map table n (farEnd (look map.aisles x) p) := by
  rw [followNext, h]

/-- The points that have a pair better than the one given. -/
def betterPoints (pairs : Pairs) (b : Pair) : Finset PointId :=
  Finset.univ.filter fun q => (look pairs q).any (fun a => a.better b) = true

theorem mem_betterPoints {pairs : Pairs} {b : Pair} {q : PointId} :
    q ∈ betterPoints pairs b ↔ ∃ a, look pairs q = some a ∧ a.better b = true := by
  cases e : look pairs q <;> simp [betterPoints, e]

/-- Towards a better pair fewer points are left. -/
theorem betterPoints_card_lt {pairs : Pairs} {a b : Pair} {q : PointId} (pair : look pairs q = some a)
    (better : a.better b = true) : (betterPoints pairs a).card < (betterPoints pairs b).card := by
  refine Finset.card_lt_card ((Finset.ssubset_iff_of_subset fun p => ?_).mpr ⟨q, ?_, ?_⟩) <;> simp only [mem_betterPoints]
  · rintro ⟨c, e, k⟩; exact ⟨c, e, Pair.better_trans k better⟩
  · exact ⟨a, pair, better⟩
  · rintro ⟨c, e, k⟩
    cases pair.symm.trans e
    rw [Pair.not_better_self] at k; cases k

theorem betterPoints_card {pairs : Pairs} {b : Pair} {p : PointId} (best : look pairs p = some b) :
    (betterPoints pairs b).card < 240 := by
  refine (Finset.card_lt_univ_of_notMem (x := p) fun mem => ?_).trans_eq (Fintype.card_fin 240)
  obtain ⟨c, e, k⟩ := mem_betterPoints.mp mem
  cases best.symm.trans e
  rw [Pair.not_better_self] at k; cases k

/-- From a defined point with a pair the next aisles lead to one exit, with as many steps as points have better pairs. -/
theorem SettledRun.arrives {map : MapStore} {sn : Snapshot} {pairs : Pairs} (h : SettledRun map sn pairs)
    (published : RouteTable) {p : PointId} {b : Pair} (d : (look map.points p).defined = true)
    (best : look pairs p = some b) :
    ∃ e, ∀ n, (betterPoints pairs b).card < n → followNext map (selectTable map sn pairs published) n p = some e := by
  induction left : (betterPoints pairs b).card using Nat.strong_induction_on generalizing p b with
  | _ k ih =>
    rcases h.record published d best with ⟨e, -, record⟩ | ⟨x, q, bq, along, dq, pair, better, record⟩
    · refine ⟨e, fun n more => ?_⟩
      obtain ⟨n, rfl⟩ := Nat.exists_eq_succ_of_ne_zero (Nat.ne_of_gt (Nat.zero_lt_of_lt more))
      exact followNext_exitHere record n
    · have fewer : (betterPoints pairs bq).card < k := left ▸ betterPoints_card_lt pair better
      obtain ⟨e, arrives⟩ := ih _ fewer dq pair rfl
      refine ⟨e, fun n more => ?_⟩
      obtain ⟨n, rfl⟩ := Nat.exists_eq_succ_of_ne_zero (Nat.ne_of_gt (Nat.zero_lt_of_lt more))
      rw [followNext_routed record, farEnd_of_leadsTo along]
      exact arrives n (by omega)

/-! ## The published table -/

theorem withTargets_routed {map : MapStore} {table : RouteTable} {p : PointId} {b : Option Pair} {x : Option AisleId}
    {e : Option ExitId} (h : look table p = ⟨.routed, b, x, e⟩) :
    look (withTargets map table) p = ⟨.routed, b, x, followNext map table 240 p⟩ := by
  unfold withTargets; rw [look_tabulate, h]; exact if_pos rfl

theorem withTargets_notRouted {map : MapStore} {table : RouteTable} {p : PointId} (h : (look table p).status ≠ .routed) :
    look (withTargets map table) p = look table p := by
  unfold withTargets; rw [look_tabulate]; exact if_neg h

/-- A published route that is ROUTED is that of a defined point with a pair. -/
theorem selectTable_routed {map : MapStore} {sn : Snapshot} {pairs : Pairs} {published : RouteTable} {p : PointId}
    (h : (look (withTargets map (selectTable map sn pairs published)) p).status = .routed) :
    (look map.points p).defined = true ∧ ∃ b, look pairs p = some b := by
  have selected : (look (selectTable map sn pairs published) p).status = .routed := by
    by_contra other
    rw [withTargets_notRouted other] at h; exact other h
  unfold selectTable at selected
  rw [look_tabulate] at selected
  cases d : (look map.points p).defined
  · rw [selectRoute_undefined d] at selected; cases selected
  · cases best : look pairs p with
    | none => rw [selectRoute_noRoute d best] at selected; cases selected
    | some b => exact ⟨rfl, b, rfl⟩

theorem publish_table {s : State} {table : RouteTable} (run : s.engine.run = .publishing)
    (new : s.engine.newTable = some table) : (publish s).engine.table = withTargets s.map table := by
  obtain ⟨d, q, -, published⟩ := publishTable_eq table s
  obtain ⟨g, after, same, -⟩ := afterPublication_cases (publishTable table s)
  rw [publish_publishing run new, after]
  dsimp only
  rw [same, published]; rfl

end Sys2Proof.Machine

namespace Sys2Proof.Proofs

open Sys2Proof Sys2Proof.Machine

/-- Settles O38: a ROUTED point's next aisle leads to a better pair, from where the next aisles lead to the same exit. -/
theorem publishedRoutesArrive : Obligations.PublishedRoutesArrive := by
  unfold Obligations.PublishedRoutesArrive
  intro s sn sound ranges aisles exits run snapshot changed abandoned
  have settled := sound.settledRun ranges aisles exits run snapshot changed
  refine ⟨_, _, exec_selectionEnd s, exec_publication _, fun p => ?_⟩
  unfold routeOf
  rw [endSelection_selects run snapshot abandoned, publish_table rfl rfl]
  intro routed
  obtain ⟨d, b, best⟩ := selectTable_routed routed
  rcases settled.record s.engine.table d best with ⟨e, -, record⟩ | ⟨x, q, bq, along, dq, pair, better, record⟩
  · rw [withTargets_notRouted (by rw [record]; nofun), record] at routed; cases routed
  · obtain ⟨e, arrives⟩ := settled.arrives s.engine.table dq pair
    have few := betterPoints_card best
    have fewer := betterPoints_card_lt pair better
    have target : followNext s.map (selectTable s.map sn s.engine.pairs s.engine.table) 240 p = some e := by
      rw [followNext_routed record, farEnd_of_leadsTo along]
      exact arrives 239 (by omega)
    have targetNext := arrives 240 (by omega)
    rw [withTargets_routed record, target]
    refine ⟨x, e, q, b, bq, rfl, rfl, rfl, along.1, along.2, ?_⟩
    rcases settled.record s.engine.table dq pair with ⟨k, at_q, recordNext⟩ | ⟨y, -, -, -, -, -, -, recordNext⟩
    · rw [withTargets_notRouted (by rw [recordNext]; nofun), recordNext]
      rw [followNext_exitHere recordNext] at targetNext
      have names := firstIndex_some at_q
      rw [Bool.and_eq_true, beq_iff_eq] at names
      cases targetNext
      exact ⟨rfl, better, rfl, .inr ⟨rfl, names⟩⟩
    · rw [withTargets_routed recordNext, targetNext]
      exact ⟨rfl, better, rfl, .inl rfl⟩

end Sys2Proof.Proofs
end

section
/-! The update queue's three properties under what the model does to it: one entry a head, URGENT before ORDINARY, and what
the entries are for (R88 to R96). -/

namespace Sys2Proof.Machine

variable {h : HeadId} {q : List Entry} {e x : Entry}

/-! ## Finding, removing and rewriting a head's entry -/

theorem entryOf_none : entryOf q h = none ↔ ∀ e ∈ q, e.head ≠ h := by
  simp [entryOf, List.find?_eq_none]

theorem entryOf_some (found : entryOf q h = some e) : e ∈ q ∧ e.head = h :=
  ⟨List.mem_of_find?_eq_some found, by simpa using List.find?_some found⟩

theorem mem_withoutHead : x ∈ withoutHead h q ↔ x ∈ q ∧ x.head ≠ h := by
  simp [withoutHead]

theorem not_mem_heads : h ∉ q.map Entry.head ↔ ∀ e ∈ q, e.head ≠ h := by
  simp [List.mem_map]

theorem withoutHead_sublist : (withoutHead h q).Sublist q := List.filter_sublist

theorem oneEach.withoutHead (one : oneEach q) : oneEach (withoutHead h q) :=
  List.Nodup.sublist (withoutHead_sublist.map _) one

theorem urgentFirst.withoutHead (order : urgentFirst q) : urgentFirst (withoutHead h q) :=
  List.Pairwise.sublist withoutHead_sublist order

/-- With one entry a head, the entry found is every entry of the head. -/
theorem oneEach.eq_entryOf (one : oneEach q) (found : entryOf q h = some e) (m : x ∈ q) (own : x.head = h) : x = e := by
  obtain ⟨me, he⟩ := entryOf_some found
  exact List.inj_on_of_nodup_map one m me (own.trans he.symm)

theorem mem_mapEntry {f : Entry → Entry} (m : x ∈ mapEntry h f q) :
    (∃ e ∈ q, e.head = h ∧ x = f e) ∨ x ∈ q ∧ x.head ≠ h := by
  obtain ⟨e, me, rfl⟩ := List.mem_map.mp m
  split
  · next own => exact .inl ⟨e, me, own, rfl⟩
  · next other => exact .inr ⟨me, other⟩

theorem heads_mapEntry {f : Entry → Entry} (keeps : ∀ e, (f e).head = e.head) :
    (mapEntry h f q).map Entry.head = q.map Entry.head := by
  unfold mapEntry; rw [List.map_map]
  refine List.map_congr_left fun e _ => ?_
  dsimp only [Function.comp_apply]; split
  · exact keeps e
  · rfl

theorem oneEach.mapEntry {f : Entry → Entry} (one : oneEach q) (keeps : ∀ e, (f e).head = e.head) :
    oneEach (mapEntry h f q) := by
  unfold oneEach; rw [heads_mapEntry keeps]; exact one

theorem urgentFirst.mapEntry {f : Entry → Entry} (order : urgentFirst q) (keeps : ∀ e, (f e).urgent = e.urgent) :
    urgentFirst (mapEntry h f q) := by
  have same (e : Entry) : (if e.head = h then f e else e).urgent = e.urgent := by split; exacts [keeps e, rfl]
  refine List.pairwise_map.mpr (order.imp fun {a b} before urgent => ?_)
  rw [same] at urgent ⊢; exact before urgent

/-! ## Joining -/

/-- An entry joins among the others, which keep their order in each section (R88). -/
theorem joinQueue_perm (e : Entry) (q : List Entry) : (joinQueue e q).Perm (e :: q) := by
  unfold joinQueue; split
  · exact List.perm_middle.trans (.cons e (List.filter_append_perm _ q))
  · exact List.perm_append_singleton e q

theorem mem_joinQueue : x ∈ joinQueue e q ↔ x = e ∨ x ∈ q := by
  rw [(joinQueue_perm e q).mem_iff, List.mem_cons]

theorem oneEach.joinQueue (one : oneEach q) (new : ∀ x ∈ q, x.head ≠ e.head) : oneEach (joinQueue e q) := by
  unfold oneEach
  rw [((joinQueue_perm e q).map Entry.head).nodup_iff, List.map_cons, List.nodup_cons]
  exact ⟨not_mem_heads.mpr new, one⟩

theorem urgentFirst.joinQueue (order : urgentFirst q) : urgentFirst (joinQueue e q) := by
  unfold Machine.joinQueue; split
  · next urgent =>
    refine List.pairwise_append.mpr ⟨order.sublist List.filter_sublist, ?_, fun a ma _ _ _ => (List.mem_filter.mp ma).2⟩
    exact List.pairwise_cons.mpr ⟨fun _ _ _ => urgent, order.sublist List.filter_sublist⟩
  · next ordinary =>
    refine List.pairwise_append.mpr ⟨order, List.pairwise_singleton _ _, fun a _ b mb urgent => ?_⟩
    rw [List.mem_singleton.mp mb] at urgent
    exact absurd urgent ordinary

/-! ## A new desired display, and an acknowledged one -/

section Displays
variable {confirmed desired : Option Display} {d : Display}

theorem oneEach.queueDisplay (one : oneEach q) : oneEach (queueDisplay h confirmed d q) := by
  unfold Machine.queueDisplay; split
  · exact one.withoutHead
  · split
    · next absent => exact one.joinQueue (entryOf_none.mp absent)
    · next e found =>
      split
      · refine one.withoutHead.joinQueue fun x m => ?_
        rw [(entryOf_some found).2]; exact (mem_withoutHead.mp m).2
      · exact one.mapEntry fun _ => rfl

theorem urgentFirst.queueDisplay (order : urgentFirst q) : urgentFirst (queueDisplay h confirmed d q) := by
  unfold Machine.queueDisplay; split
  · exact order.withoutHead
  · split
    · exact order.joinQueue
    · split
      · exact order.withoutHead.joinQueue
      · exact order.mapEntry fun _ => rfl

/-- A head's new display has no entry where it is confirmed already, and its entry is for that display otherwise (R90). -/
theorem mem_queueDisplay (m : x ∈ queueDisplay h confirmed d q) :
    (x ∈ q ∧ x.head ≠ h) ∨ x.head = h ∧ x.display = d ∧ confirmed ≠ some d := by
  unfold queueDisplay at m; split at m
  · exact .inl (mem_withoutHead.mp m)
  · next new =>
    split at m
    · next absent =>
      rcases mem_joinQueue.mp m with rfl | m
      · exact .inr ⟨rfl, rfl, new⟩
      · exact .inl ⟨m, entryOf_none.mp absent x m⟩
    · next e found =>
      split at m
      · rcases mem_joinQueue.mp m with rfl | m
        · exact .inr ⟨(entryOf_some found).2, rfl, new⟩
        · exact .inl (mem_withoutHead.mp m)
      · rcases mem_mapEntry m with ⟨y, -, own, rfl⟩ | other
        · exact .inr ⟨own, rfl, new⟩
        · exact .inl other

theorem oneEach.queueAck (one : oneEach q) : oneEach (queueAck h d desired q) := by
  unfold Machine.queueAck; split
  · split; exacts [one.withoutHead, one]
  · next absent =>
    split
    · split
      · exact one
      · exact one.joinQueue (entryOf_none.mp absent)
    · exact one

theorem urgentFirst.queueAck (order : urgentFirst q) : urgentFirst (queueAck h d desired q) := by
  unfold Machine.queueAck; split
  · split; exacts [order.withoutHead, order]
  · split
    · split; exacts [order, order.joinQueue]
    · exact order

/-- After an acknowledgement a head's entry is for another display than the one acknowledged: the entry it had, or a new
one for the desired display (R93, R95). -/
theorem mem_queueAck (one : oneEach q) (m : x ∈ queueAck h d desired q) :
    (x ∈ q ∧ x.head ≠ h) ∨ x.head = h ∧ x.display ≠ d ∧ (x ∈ q ∨ desired = some x.display) := by
  unfold queueAck at m; split at m
  · next e found =>
    split at m
    · exact .inl (mem_withoutHead.mp m)
    · next newer =>
      by_cases own : x.head = h
      · exact .inr ⟨own, by rwa [one.eq_entryOf found m own], .inl m⟩
      · exact .inl ⟨m, own⟩
  · next absent =>
    have old (m : x ∈ q) : x ∈ q ∧ x.head ≠ h := ⟨m, entryOf_none.mp absent x m⟩
    split at m
    · next w =>
      split at m
      · exact .inl (old m)
      · next newer =>
        rcases mem_joinQueue.mp m with rfl | m
        · exact .inr ⟨rfl, newer, .inr rfl⟩
        · exact .inl (old m)
    · exact .inl (old m)

end Displays

end Sys2Proof.Machine
end

section
/-! What the display invariant is about, head by head, and how an operation that leaves one head's display behind for a
while comes back to it (R71, R80, R81, R88). -/

namespace Sys2Proof.Machine

/-! ## What displays stand on -/

/-- What the invariant reads of desired displays, queue and head records; held marks play no part. -/
structure Standing where
  desired : HeadId → Option Display
  queue : List Entry
  displays : HeadId → Bool
  confirmed : HeadId → Option Display

/-- The standing of the part's displays. -/
def standing (s : State) : Standing :=
  ⟨desiredOf s, clearHeld s.queue, fun h => displaying (headOf s h).state, fun h => (headOf s h).confirmed⟩

/-- All that the invariant reads: where displays stand, and the display that each head's inputs give. -/
def displayView (s : State) : Standing × (HeadId → Display) := (standing s, displayFor s)

theorem standing_of_view {s t : State} (e : displayView t = displayView s) : standing t = standing s := congrArg Prod.fst e

theorem displayFor_of_view {s t : State} (e : displayView t = displayView s) : displayFor t = displayFor s :=
  congrArg Prod.snd e

/-- The queue holds one entry a head, URGENT first, each for a desired display that is not confirmed (R88, R98). -/
structure QueueSound (s : State) : Prop where
  heads : oneEach s.queue
  order : urgentFirst s.queue
  entries : ∀ e ∈ s.queue, desiredOf s e.head = some e.display ∧ (headOf s e.head).confirmed ≠ some e.display

/-- A head has a desired display in the states that have one, and it is the one its inputs give (R71, R80). -/
def Follows (s : State) (h : HeadId) : Prop :=
  (desiredOf s h).isSome = displaying (headOf s h).state ∧ ∀ d, desiredOf s h = some d → d = displayFor s h

/-- The queue is sound, and desired displays follow the head states, but perhaps not their inputs (R71, R88). -/
structure Held (s : State) : Prop where
  queue : QueueSound s
  desired : ∀ h, (desiredOf s h).isSome = displaying (headOf s h).state

/-- The queue is sound, and the desired display of every head follows, but perhaps for one head. -/
structure Settling (h : HeadId) (s : State) : Prop where
  queue : QueueSound s
  others : ∀ k, h ≠ k → Follows s k

theorem DisplaySound.queue {s : State} (d : DisplaySound s) : QueueSound s := ⟨d.heads, d.order, d.entries⟩

theorem DisplaySound.follows {s : State} (d : DisplaySound s) (h : HeadId) : Follows s h := ⟨d.desired h, d.current h⟩

theorem DisplaySound.of {s : State} (queue : QueueSound s) (follows : ∀ h, Follows s h) : DisplaySound s :=
  ⟨fun h => (follows h).1, fun h => (follows h).2, queue.heads, queue.entries, queue.order⟩

theorem DisplaySound.held {s : State} (d : DisplaySound s) : Held s := ⟨d.queue, d.desired⟩

theorem DisplaySound.settling {s : State} (d : DisplaySound s) (h : HeadId) : Settling h s :=
  ⟨d.queue, fun k _ => d.follows k⟩

/-- The one head follows after all. -/
theorem Settling.sound {h : HeadId} {s : State} (a : Settling h s) (own : Follows s h) : DisplaySound s :=
  .of a.queue fun k => by by_cases e : h = k; exacts [e ▸ own, a.others k e]

/-! ## The same standing -/

theorem oneEach_clearHeld {q : List Entry} : oneEach (clearHeld q) ↔ oneEach q := by
  unfold oneEach clearHeld; rw [List.map_map]; rfl

theorem urgentFirst_clearHeld {q : List Entry} : urgentFirst (clearHeld q) ↔ urgentFirst q := List.pairwise_map

theorem QueueSound.of_standing {s t : State} (k : QueueSound s) (e : standing t = standing s) : QueueSound t := by
  have desired : desiredOf t = desiredOf s := congrArg Standing.desired e
  have queue : clearHeld t.queue = clearHeld s.queue := congrArg Standing.queue e
  have confirmed (h : HeadId) : (headOf t h).confirmed = (headOf s h).confirmed := congrFun (congrArg Standing.confirmed e) h
  refine ⟨?_, ?_, fun x m => ?_⟩
  · rw [← oneEach_clearHeld, queue, oneEach_clearHeld]; exact k.heads
  · rw [← urgentFirst_clearHeld, queue, urgentFirst_clearHeld]; exact k.order
  · have mine : { x with held := false } ∈ clearHeld t.queue := List.mem_map.mpr ⟨x, m, rfl⟩
    rw [queue] at mine
    obtain ⟨y, my, e⟩ := List.mem_map.mp mine
    have head : y.head = x.head := (Entry.mk.inj e).1
    have display : y.display = x.display := (Entry.mk.inj e).2.1
    rw [desired, confirmed, ← head, ← display]
    exact k.entries y my

theorem Held.of_standing {s t : State} (k : Held s) (e : standing t = standing s) : Held t := by
  refine ⟨k.queue.of_standing e, fun h => ?_⟩
  have desired : desiredOf t = desiredOf s := congrArg Standing.desired e
  have displays : displaying (headOf t h).state = displaying (headOf s h).state := congrFun (congrArg Standing.displays e) h
  rw [desired, displays]; exact k.desired h

theorem Held.of_view {s t : State} (k : Held s) (e : displayView t = displayView s) : Held t :=
  k.of_standing (standing_of_view e)

theorem Follows.of_view {s t : State} {h : HeadId} (k : Follows s h) (e : displayView t = displayView s) : Follows t h := by
  have desired : desiredOf t = desiredOf s := congrArg Standing.desired (standing_of_view e)
  have displays : displaying (headOf t h).state = displaying (headOf s h).state :=
    congrFun (congrArg Standing.displays (standing_of_view e)) h
  unfold Follows
  rw [desired, displays, displayFor_of_view e]; exact k

theorem DisplaySound.of_view {s t : State} (k : DisplaySound s) (e : displayView t = displayView s) : DisplaySound t :=
  .of (k.queue.of_standing (standing_of_view e)) fun h => (k.follows h).of_view e

theorem Settling.of_view {h : HeadId} {s t : State} (a : Settling h s) (e : displayView t = displayView s) : Settling h t :=
  ⟨a.queue.of_standing (standing_of_view e), fun k n => (a.others k n).of_view e⟩

/-- A record is rewritten without a change to what displays stand on. -/
theorem standing_setHead {h : HeadId} {r : Head} {s : State} (state : displaying r.state = displaying (headOf s h).state)
    (confirmed : r.confirmed = (headOf s h).confirmed) : standing (setHead h r s) = standing s := by
  have displays (k : HeadId) : displaying (headOf (setHead h r s) k).state = displaying (headOf s k).state := by
    by_cases e : h = k
    · subst e; rw [headOf_setHead_same]; exact state
    · rw [headOf_setHead_ne _ _ e]
  have confirms (k : HeadId) : (headOf (setHead h r s) k).confirmed = (headOf s k).confirmed := by
    by_cases e : h = k
    · subst e; rw [headOf_setHead_same]; exact confirmed
    · rw [headOf_setHead_ne _ _ e]
  unfold standing
  rw [funext displays, funext confirms]; rfl

theorem RewritesHead.frame {h : HeadId} {f : Head → Head} {s t : State} (a : RewritesHead h f s t) :
    ∃ r d q l, t = { s with
      heads := { s.heads with records := r }, selector := { s.selector with desired := d }, queue := q, link := l } := by
  obtain ⟨m, d, q, l, moved⟩ := a.moves
  exact ⟨change s.heads.records h f, d, q, l, by rw [← a.heads, moved]⟩

/-- A head's display reads of its record the abilities and the fault mask alone (R74, R78). -/
theorem displayFor_rewrites {h : HeadId} {f : Head → Head} {s t : State} (a : RewritesHead h f s t)
    (abilities : (f (headOf s h)).abilities = (headOf s h).abilities)
    (mask : (f (headOf s h)).faultMask = (headOf s h).faultMask) : displayFor t = displayFor s := by
  funext k
  refine displayFor_congr a.frame ?_ ?_ <;> rw [a.headOf] <;> split
  · next e => rw [← e]; exact abilities
  · rfl
  · next e => rw [← e]; exact mask
  · rfl

/-- A record is rewritten without a change to its part in displays. -/
theorem displayView_setHead {h : HeadId} {r : Head} {s : State} (state : displaying r.state = displaying (headOf s h).state)
    (confirmed : r.confirmed = (headOf s h).confirmed) (abilities : r.abilities = (headOf s h).abilities)
    (mask : r.faultMask = (headOf s h).faultMask) : displayView (setHead h r s) = displayView s :=
  Prod.ext (standing_setHead state confirmed) (displayFor_rewrites (setHead_rewrites h (fun _ => r) s) abilities mask)

@[simp] theorem displayView_offer (n : Notice) (s : State) : displayView (offer n s) = displayView s := rfl

/-- The link, the clock and the commands that wait play no part. -/
theorem displayView_link_clock (s : State) (l : Link) (n : Nat) (p : List Instr) :
    displayView { s with link := l, now := n, pending := p } = displayView s := rfl

theorem displayView_endTest (h : HeadId) (s : State) : displayView (endTest h s) = displayView s := by
  unfold endTest; split
  · rw [displayView_offer]; exact displayView_setHead rfl rfl rfl rfl
  · rfl

/-! ## One head's operations -/

/-- The head manager's move of one head shows at that head alone. -/
theorem Follows.other {h k : HeadId} {f : Head → Head} {s t : State} (a : RewritesHead h f s t) (n : h ≠ k)
    (desired : desiredOf t k = desiredOf s k) (b : Follows s k) : Follows t k := by
  have record : headOf t k = headOf s k := by rw [a.headOf, if_neg n]
  have display : displayFor t k = displayFor s k := displayFor_congr a.frame (by rw [record]) (by rw [record])
  unfold Follows
  rw [desired, record, display]; exact b

/-- A head's record is rewritten, its confirmed display staying or becoming absent. -/
theorem QueueSound.setHead {h : HeadId} {r : Head} {s : State} (a : QueueSound s)
    (confirmed : r.confirmed = (headOf s h).confirmed ∨ r.confirmed = none) : QueueSound (setHead h r s) := by
  refine ⟨a.heads, a.order, fun e m => ⟨(a.entries e m).1, ?_⟩⟩
  by_cases own : h = e.head
  · rw [← own, headOf_setHead_same]
    rcases confirmed with same | none
    · rw [same, own]; exact (a.entries e m).2
    · rw [none]; nofun
  · rw [headOf_setHead_ne _ _ own]; exact (a.entries e m).2

theorem Settling.setHead {h : HeadId} {s : State} (a : Settling h s) (f : Head → Head)
    (confirmed : (f (headOf s h)).confirmed = (headOf s h).confirmed ∨ (f (headOf s h)).confirmed = none) :
    Settling h (setHead h (f (headOf s h)) s) :=
  ⟨a.queue.setHead confirmed, fun k n => (a.others k n).other (setHead_rewrites h f s) n rfl⟩

theorem Settling.endTest {h k : HeadId} {s : State} (a : Settling h s) : Settling h (endTest k s) :=
  a.of_view (displayView_endTest k s)

theorem Settling.enterLoading {h : HeadId} {s : State} (a : Settling h s) : Settling h (enterLoading h s) :=
  a.endTest.setHead (fun r => { r with state := .loading, loaded := [] }) (.inl rfl)

theorem QueueSound.dropDisplay {s : State} (a : QueueSound s) (h : HeadId) : QueueSound (dropDisplay h s) := by
  refine ⟨a.heads.withoutHead, a.order.withoutHead, fun e m => ?_⟩
  obtain ⟨old, other⟩ := mem_withoutHead.mp m
  refine ⟨?_, (a.entries e old).2⟩
  unfold Machine.dropDisplay
  rw [desiredOf_setDesired_ne _ _ (Ne.symm other)]; exact (a.entries e old).1

/-- A head that leaves the states with a display gives it up (R71, R96). -/
theorem Settling.dropDisplay {h : HeadId} {s : State} (a : Settling h s) (dark : displaying (headOf s h).state = false) :
    DisplaySound (dropDisplay h s) := by
  have gone : desiredOf (Machine.dropDisplay h s) h = none := desiredOf_setDesired_same ..
  have settled : Settling h (Machine.dropDisplay h s) :=
    ⟨a.queue.dropDisplay h, fun k n => (a.others k n).other (dropDisplay_rewrites h s) n (desiredOf_setDesired_ne _ _ n)⟩
  refine settled.sound ⟨?_, fun d e => by rw [gone] at e; cases e⟩
  rw [gone]; exact dark.symm

theorem QueueSound.refreshHead {s : State} (a : QueueSound s) (h : HeadId) : QueueSound (refreshHead h s) := by
  obtain ⟨wants, takes⟩ := refreshHead_refreshed h s
  have record (k : HeadId) : headOf (Machine.refreshHead h s) k = headOf s k := by
    rw [(refreshHead_rewrites h s).headOf]; exact ite_self _
  rw [record] at takes
  split at takes
  · next same =>
    have still : Machine.refreshHead h s = s := by
      refine if_pos (same.trans ?_)
      obtain ⟨d, q, frame⟩ := refreshHead_frame h s
      rw [frame]; rfl
    rw [still]; exact a
  · refine ⟨by rw [takes]; exact a.heads.queueDisplay, by rw [takes]; exact a.order.queueDisplay, fun e m => ?_⟩
    rw [takes] at m
    rw [record]
    rcases mem_queueDisplay m with ⟨old, other⟩ | ⟨own, display, new⟩
    · rw [desiredOf_refreshHead_ne s (Ne.symm other)]; exact a.entries e old
    · rw [own, display]; exact ⟨wants, new⟩

/-- A head in a state with a display has it recomputed (R80, R81). -/
theorem Settling.refreshHead {h : HeadId} {s : State} (a : Settling h s) (lit : displaying (headOf s h).state = true) :
    DisplaySound (refreshHead h s) := by
  obtain ⟨wants, -⟩ := refreshHead_refreshed h s
  have settled : Settling h (Machine.refreshHead h s) :=
    ⟨a.queue.refreshHead h, fun k n => (a.others k n).other (refreshHead_rewrites h s) n (desiredOf_refreshHead_ne s n)⟩
  refine settled.sound ⟨?_, fun d e => Option.some.inj (e.symm.trans wants)⟩
  rw [wants, (refreshHead_rewrites h s).headOf, if_pos rfl]; exact lit.symm

/-- An acknowledged display becomes the confirmed one, and the queue keeps no entry for it (R93, R95). -/
theorem QueueSound.confirmDisplay {s : State} (a : QueueSound s) (h : HeadId) (d : Option Display) :
    QueueSound (confirmDisplay h d s) := by
  cases d with
  | none => exact a
  | some d =>
    refine ⟨a.heads.queueAck, a.order.queueAck, fun e m => ?_⟩
    have record (k : HeadId) : (headOf (Machine.confirmDisplay h (some d) s) k).confirmed
        = if h = k then some d else (headOf s k).confirmed := by
      rw [(confirmDisplay_rewrites h (some d) s).headOf]; split <;> rfl
    rcases mem_queueAck a.heads m with ⟨old, other⟩ | ⟨own, newer, old | wanted⟩
    · rw [record, if_neg (Ne.symm other)]; exact a.entries e old
    · rw [record, if_pos own.symm]; exact ⟨(a.entries e old).1, fun same => newer (Option.some.inj same).symm⟩
    · rw [record, if_pos own.symm]; exact ⟨own ▸ wanted, fun same => newer (Option.some.inj same).symm⟩

theorem Settling.confirmDisplay {h : HeadId} {s : State} (a : Settling h s) (d : Option Display) :
    Settling h (confirmDisplay h d s) := by
  refine ⟨a.queue.confirmDisplay h d, fun k n => (a.others k n).other (confirmDisplay_rewrites h d s) n ?_⟩
  cases d <;> rfl

/-! ## Recomputation of all -/

theorem Held.refreshHead {s : State} (a : Held s) {h : HeadId} (lit : displaying (headOf s h).state = true) :
    Held (refreshHead h s) := by
  refine ⟨a.queue.refreshHead h, fun k => ?_⟩
  rw [(refreshHead_rewrites h s).headOf, id, ite_self]
  by_cases e : h = k
  · subst e
    rw [(refreshHead_refreshed h s).1]; exact lit.symm
  · rw [desiredOf_refreshHead_ne s e]; exact a.desired k

/-- A recomputation of all displays brings each to its inputs (R80, R81). -/
theorem Held.recomputeAll {s : State} (a : Held s) : DisplaySound (recomputeAll s) := by
  have held : Held (Machine.recomputeAll s) := by
    refine forEach_induct (P := Held) _ s a fun h t b => ?_
    split
    · next lit => exact b.refreshHead ((b.desired h).symm.trans lit)
    · exact b
  refine .of held.queue fun h => ⟨held.desired h, fun d e => ?_⟩
  have wants := (recomputeAll_recomputed s).1 h
  split at wants
  · exact Option.some.inj (e.symm.trans wants)
  · rw [e] at wants; cases wants

end Sys2Proof.Machine
end

section
/-! Every outcome of a command keeps the display invariant, and so do announcements and the requests on heads (sections 5
and 7). -/

namespace Sys2Proof.Machine

/-! ## Entries into states -/

section Entries
variable {h : HeadId} {s : State}

/-- A record is rewritten, with its confirmed display, abilities and fault mask left, among the states with a display or
among those without. -/
theorem DisplaySound.setHead (k : DisplaySound s) {r : Head} (state : displaying r.state = displaying (headOf s h).state)
    (confirmed : r.confirmed = (headOf s h).confirmed) (abilities : r.abilities = (headOf s h).abilities)
    (mask : r.faultMask = (headOf s h).faultMask) : DisplaySound (setHead h r s) :=
  k.of_view (displayView_setHead state confirmed abilities mask)

theorem DisplaySound.offer (k : DisplaySound s) (n : Notice) : DisplaySound (offer n s) := k.of_view (displayView_offer n s)

/-- A head without a display has no inputs to follow. -/
theorem Settling.dark (a : Settling h s) (dark : displaying (headOf s h).state = false) (none : desiredOf s h = none) :
    DisplaySound s := by
  refine a.sound ⟨?_, fun d e => ?_⟩
  · rw [none, dark]; rfl
  · rw [none] at e; cases e

theorem DisplaySound.enterAbsent (k : DisplaySound s) (keep : Bool) (h : HeadId) : DisplaySound (enterAbsent keep h s) := by
  have confirmed : (absentRecord keep (headOf s h)).confirmed = none := by unfold absentRecord; split <;> rfl
  refine ((k.settling h).endTest (k := h)).setHead (fun _ => absentRecord keep (headOf s h)) (.inr confirmed)
    |>.dropDisplay ?_
  rw [headOf_setHead_same]; unfold absentRecord; split <;> rfl

theorem Settling.enterJoining (a : Settling h s) (ab : Option Abilities) : DisplaySound (enterJoining h ab s) := by
  refine (a.endTest (k := h)).setHead (fun _ => joiningRecord ab (headOf s h)) (.inr rfl) |>.dropDisplay ?_
  rw [headOf_setHead_same]; rfl

theorem Settling.enterFailed (a : Settling h s) : DisplaySound (enterFailed h s) := by
  refine (a.endTest (k := h)).setHead (fun r => { r with state := .failed, waitCount := 0 }) (.inl rfl) |>.dropDisplay ?_
  rw [headOf_setHead_same]; rfl

theorem headOf_enterLoading (h : HeadId) (s : State) : (headOf (enterLoading h s) h).state = .loading := by
  rw [(enterLoading_rewrites h s).headOf, if_pos rfl]; rfl

/-- A head enters LOADING, and its display is recomputed. -/
theorem Settling.reload (a : Settling h s) : DisplaySound (Machine.refreshHead h (Machine.enterLoading h s)) :=
  a.enterLoading.refreshHead (by rw [headOf_enterLoading]; rfl)

/-! ## Faults and WAITs -/

theorem DisplaySound.noteFault (k : DisplaySound s) (c : FaultCause) : DisplaySound (noteFault h c s) :=
  k.setHead rfl rfl rfl rfl

theorem DisplaySound.waitUp (k : DisplaySound s) : DisplaySound (waitUp h s) := k.setHead rfl rfl rfl rfl

theorem DisplaySound.headFault (k : DisplaySound s) (c : FaultCause) : DisplaySound (headFault h c s) := by
  have failed := (k.settling h).setHead (fun r => { countFault c r with state := .recovering }) (.inl rfl)
  refine (failed.endTest (k := h)).of_view (displayView_offer _ _) |>.refreshHead ?_
  rw [(offer_rewrites h _ _).headOf, if_pos rfl, id, (endTest_rewrites h _).headOf, if_pos rfl, headOf_setHead_same]; rfl

theorem DisplaySound.resyncFault (k : DisplaySound s) (c : FaultCause) : DisplaySound (resyncFault h c s) :=
  ((k.noteFault c).settling h).enterFailed.offer _

theorem clearHeld_holdEntry (h : HeadId) (q : List Entry) : clearHeld (holdEntry h q) = clearHeld q := by
  unfold clearHeld holdEntry mapEntry
  rw [List.map_map]
  refine List.map_congr_left fun e _ => ?_
  dsimp only [Function.comp_apply]; split <;> rfl

/-- Held marks play no part in displays (R91). -/
theorem displayView_queue {q : List Entry} (same : clearHeld q = clearHeld s.queue) :
    displayView { s with queue := q } = displayView s :=
  Prod.ext (congrArg (fun q => { standing s with queue := q }) same) rfl

theorem DisplaySound.heldByWait (k : DisplaySound s) (c : BusCommand) (o : Bool) : DisplaySound (heldByWait h c o s) := by
  unfold Machine.heldByWait; split
  · split
    · exact k
    · exact k.of_view (displayView_queue (clearHeld_holdEntry h s.queue))
  · exact k

/-! ## Outcomes by command -/

theorem DisplaySound.assignAck (k : DisplaySound s) : DisplaySound (assignAck h s) := by
  refine ((k.settling h).enterLoading).setHead (fun r => { r with confirmed := none, generation := none, waitCount := 0 })
    (.inr rfl) |>.refreshHead ?_
  rw [headOf_setHead_same, headOf_enterLoading]; rfl

theorem DisplaySound.scriptAck (k : DisplaySound s) (g sc b : Byte) : DisplaySound (scriptAck h g sc b s) := by
  unfold Machine.scriptAck; dsimp only; split
  · exact k.setHead rfl rfl rfl rfl
  · split
    · refine (k.settling h).setHead (fun r => { r with waitCount := 0, generation := some g, state := .serving }) (.inl rfl)
        |>.of_view (displayView_offer _ _) |>.refreshHead ?_
      rw [(offer_rewrites h _ _).headOf, if_pos rfl, id, headOf_setHead_same]; rfl
    · exact k.setHead rfl rfl rfl rfl

/-- An acknowledged display leaves the desired one as it was. -/
theorem DisplaySound.confirmDisplay (k : DisplaySound s) (d : Option Display) : DisplaySound (confirmDisplay h d s) := by
  refine ((k.settling h).confirmDisplay d).sound ?_
  cases d with
  | none => exact k.follows h
  | some d =>
    have view : displayFor (Machine.confirmDisplay h (some d) s) = displayFor s :=
      displayFor_rewrites (confirmDisplay_rewrites h (some d) s) rfl rfl
    have state := congrArg Head.state ((confirmDisplay_rewrites h (some d) s).headOf h)
    rw [if_pos rfl] at state
    unfold Follows
    rw [state, view]; exact k.follows h

theorem Settling.takeStatus (a : Settling h s) (st : AckStatus) : Settling h (takeStatus h st s) :=
  a.setHead (fun r => { r with faultMask := st.mask, generation := st.generation, waitCount := 0 }) (.inl rfl)

/-- A status with the fault mask that the record holds changes no display (R80). -/
theorem DisplaySound.takeStatus (k : DisplaySound s) {st : AckStatus} (mask : (headOf s h).faultMask = st.mask) :
    DisplaySound (takeStatus h st s) := k.setHead rfl rfl rfl mask.symm

theorem displayView_testDone (st : AckStatus) : displayView (testDone h st s) = displayView s := by
  unfold testDone; split
  · rw [displayView_offer]; exact displayView_setHead rfl rfl rfl rfl
  · rfl

theorem displayView_tested (c : BusCommand) (st : AckStatus) (u : State) :
    displayView (if c = .test then testDone h st u else u) = displayView u := by
  split
  · exact displayView_testDone st
  · rfl

theorem takeStatus_state (d : Option Display) (st : AckStatus) :
    (headOf (takeStatus h st (confirmDisplay h d s)) h).state = (headOf s h).state := by
  unfold takeStatus
  rw [headOf_setHead_same]
  dsimp only
  rw [(confirmDisplay_rewrites h d s).headOf, if_pos rfl]

theorem confirmDisplay_mask (d : Option Display) : (headOf (confirmDisplay h d s) h).faultMask = (headOf s h).faultMask := by
  rw [(confirmDisplay_rewrites h d s).headOf, if_pos rfl]

/-- What follows the taking of a status without a change to displays, and a recomputation where the fault mask is another
(R80, R124, R129). -/
theorem DisplaySound.refreshTaken (k : DisplaySound s) {d : Option Display} {st : AckStatus} {t : State} {c : Bool}
    (view : displayView t = displayView (Machine.takeStatus h st (Machine.confirmDisplay h d s)))
    (lit : displaying (headOf t h).state = true) (changed : c = false → (headOf s h).faultMask = st.mask) :
    DisplaySound (refreshIf c h t) := by
  unfold refreshIf; split
  · exact (((k.settling h).confirmDisplay d).takeStatus st).of_view view |>.refreshHead lit
  · next still =>
    refine ((k.confirmDisplay d).takeStatus ?_).of_view view
    rw [confirmDisplay_mask]; exact changed (Bool.eq_false_of_not_eq_true still)

theorem DisplaySound.loadingOutcome (k : DisplaySound s) (e : (headOf s h).state = .loading) (c : BusCommand) (o : Bool)
    (t : Taken) : DisplaySound (loadingOutcome h c o t s) := by
  cases t with
  | ack st => exact k.refreshTaken rfl (by rw [takeStatus_state, e]; rfl) fun same => by simpa using same
  | wait => exact k.waitUp.heldByWait c o
  | fault x => exact k.headFault x

theorem DisplaySound.servingAck (k : DisplaySound s) (e : (headOf s h).state = .serving) (c : BusCommand) (st : AckStatus) :
    DisplaySound (servingAck h c st s) := by
  have view := displayView_tested (h := h) c st (Machine.takeStatus h st (Machine.confirmDisplay h (carriedDisplay c) s))
  unfold Machine.servingAck; dsimp only
  by_cases stale : (st.generation != some s.selector.generation) = true
  · rw [if_pos stale, stale, Bool.or_true]
    exact (((k.settling h).confirmDisplay _).takeStatus st).of_view view |>.reload
  · rw [if_neg stale, Bool.eq_false_of_not_eq_true stale, Bool.or_false]
    refine k.refreshTaken view ?_ fun same => by simpa using same
    have lit := congrFun (congrArg Standing.displays (standing_of_view view)) h
    exact lit.trans (by show displaying _ = _; rw [takeStatus_state, e]; rfl)

theorem DisplaySound.resyncAck (k : DisplaySound s) (d : Option Display) (st : AckStatus) :
    DisplaySound (resyncAck h d st s) := by
  have taken := ((k.settling h).confirmDisplay d).takeStatus st
  unfold Machine.resyncAck; dsimp only; split
  · refine taken.setHead (fun r => { r with state := .serving }) (.inl rfl) |>.of_view (displayView_offer _ _)
      |>.refreshHead ?_
    rw [(offer_rewrites h _ _).headOf, if_pos rfl, id, headOf_setHead_same]; rfl
  · exact taken.reload

theorem DisplaySound.assignOutcome (k : DisplaySound s) (t : Taken) : DisplaySound (assignOutcome h t s) := by
  cases t with
  | ack => exact k.assignAck
  | wait => exact k.waitUp
  | fault c => exact (k.noteFault c).enterAbsent true h

theorem DisplaySound.scriptOutcome (k : DisplaySound s) (g sc b : Byte) (t : Taken) :
    DisplaySound (scriptOutcome h g sc b t s) := by
  cases t with
  | ack => exact k.scriptAck g sc b
  | wait => exact k.waitUp
  | fault c => exact k.headFault c

theorem DisplaySound.servingOutcome (k : DisplaySound s) (e : (headOf s h).state = .serving) (c : BusCommand) (o : Bool)
    (t : Taken) : DisplaySound (servingOutcome h c o t s) := by
  cases t with
  | ack st => exact k.servingAck e c st
  | wait => exact k.waitUp.heldByWait c o
  | fault x => exact k.headFault x

theorem DisplaySound.resyncOutcome (k : DisplaySound s) (d : Display) (t : Taken) :
    DisplaySound (resyncOutcome h d t s) := by
  cases t with
  | ack st => exact k.resyncAck (some d) st
  | wait => exact k.waitUp
  | fault c => exact k.resyncFault c

theorem DisplaySound.observedAssign (k : DisplaySound s) (t : Taken) : DisplaySound (observedAssign h t s) := by
  cases t with
  | ack => exact k.assignAck
  | wait => exact k
  | fault => exact k

theorem DisplaySound.observedScript (k : DisplaySound s) (g sc b : Byte) (t : Taken) :
    DisplaySound (observedScript h g sc b t s) := by
  cases t with
  | ack => exact (k.settling h).reload.scriptAck g sc b
  | wait => exact k.waitUp
  | fault c => unfold Machine.observedScript; dsimp only; split; exacts [k.headFault c, k.noteFault c]

theorem DisplaySound.observedRecovering (k : DisplaySound s) (c : BusCommand) (t : Taken) :
    DisplaySound (observedRecovering h c t s) := by
  cases t with
  | ack st => exact k.resyncAck _ st
  | wait => exact k.waitUp
  | fault x => exact k.noteFault x

end Entries

/-- The outcome of a command of the part's own slot (R113). -/
theorem DisplaySound.ownOutcome {s : State} (k : DisplaySound s) (h : HeadId) (c : BusCommand) (w : WindowClass) :
    DisplaySound (ownOutcome h c w s) := by
  unfold Machine.ownOutcome
  generalize e : (headOf s h).state = st
  cases c <;> cases st <;> dsimp only
  case assign.joining => exact k.assignOutcome _
  case script.loading => exact k.scriptOutcome _ _ _ _
  case display.serving | poll.serving | test.serving => exact k.servingOutcome e _ _ _
  case display.loading | poll.loading | test.loading => exact k.loadingOutcome e _ _ _
  case resync.recovering => exact k.resyncOutcome _ _
  all_goals exact k

/-- The outcome of an observed command (Table 8.4). -/
theorem DisplaySound.observedOutcome {s : State} (k : DisplaySound s) (h : HeadId) (c : BusCommand) (w : WindowClass) :
    DisplaySound (observedOutcome h c w s) := by
  unfold Machine.observedOutcome
  generalize e : (headOf s h).state = st
  cases c <;> cases st <;> dsimp only
  case assign.joining => exact k.assignOutcome _
  case assign.loading | assign.serving | assign.recovering => exact k.observedAssign _
  case script.loading => exact k.scriptOutcome _ _ _ _
  case script.serving | script.recovering => exact k.observedScript _ _ _ _
  case display.serving | poll.serving | test.serving => exact k.servingOutcome e _ _ _
  case display.loading | poll.loading | test.loading => exact k.loadingOutcome e _ _ _
  case display.recovering | poll.recovering | test.recovering => exact k.observedRecovering _ _
  case resync.recovering | resync.loading | resync.serving => exact k.resyncOutcome _ _
  all_goals exact k

/-! ## Announcements, library edits, release, TEST HEAD and RESTORE HEAD -/

/-- The lists of the head manager play no part in displays. -/
theorem displayView_lists (s : State) (l : List Stranger) (x : Option Serial) :
    displayView { s with heads := { s.heads with strangers := l, lastFaulty := x } } = displayView s := rfl

theorem DisplaySound.strangerHeard {s : State} (k : DisplaySound s) (serial : Serial) (a : Abilities) :
    DisplaySound (strangerHeard serial a s) := by
  unfold Machine.strangerHeard; dsimp only; split
  · exact k.of_view (displayView_lists s _ s.heads.lastFaulty)
  · exact (k.of_view (displayView_lists s _ s.heads.lastFaulty)).offer _

/-- The record of a head without a display may take other inputs. -/
theorem DisplaySound.setDark {h : HeadId} {s : State} (k : DisplaySound s) {r : Head}
    (dark : displaying (headOf s h).state = false) (state : r.state = (headOf s h).state)
    (confirmed : r.confirmed = (headOf s h).confirmed) : DisplaySound (Machine.setHead h r s) := by
  have none : desiredOf s h = none := Option.not_isSome_iff_eq_none.mp (by rw [k.desired h, dark]; exact Bool.false_ne_true)
  refine ((k.settling h).setHead (fun _ => r) (.inl confirmed)).dark ?_ none
  rw [headOf_setHead_same, state]; exact dark

theorem DisplaySound.acceptedAnnouncement {s : State} (k : DisplaySound s) (serial : Serial) (a : Abilities) :
    DisplaySound (acceptedAnnouncement serial a s) := by
  unfold Machine.acceptedAnnouncement; split
  · exact k.strangerHeard serial a
  · next h _ =>
    split
    · split
      · next e => exact k.setDark (by rw [e]; rfl) rfl rfl
      · next e =>
        have announced : DisplaySound (Machine.setHead h { headOf s h with abilities := some a, announced := true } s) :=
          k.setDark (by rw [e]; rfl) rfl rfl
        unfold failedAnnounces; dsimp only; split
        · exact announced
        · exact announced.offer _
      · exact (k.settling h).enterJoining (some a)
    · exact k

theorem DisplaySound.announce {s : State} (k : DisplaySound s) (serial : Serial) (a : Abilities) :
    DisplaySound (announce serial a s) := by
  unfold Machine.announce; split
  · unfold enrolFaulty; split
    · exact k
    · exact (k.of_view (displayView_lists s s.heads.strangers (some serial))).offer _
  · exact k.acceptedAnnouncement serial a

/-- Entry into LOADING from a state with a display leaves what displays stand on (R122, R124). -/
theorem standing_enterLoading {h : HeadId} {s : State} (lit : displaying (headOf s h).state = true) :
    standing (enterLoading h s) = standing s := by
  have ended : displaying (headOf (endTest h s) h).state = true := by
    rw [(endTest_rewrites h s).headOf, if_pos rfl]; exact lit
  have written : standing (enterLoading h s) = standing (endTest h s) :=
    standing_setHead (r := { headOf (endTest h s) h with state := .loading, loaded := [] }) ended.symm rfl
  exact written.trans (standing_of_view (displayView_endTest h s))

/-- A head told of a new library generation: its display may be behind its inputs until all are recomputed (R84). -/
theorem Held.reloadHead {s : State} (k : Held s) (h : HeadId) : Held (reloadHead h s) := by
  unfold Machine.reloadHead; split
  · next e =>
    exact (k.of_standing (standing_enterLoading (by rw [e]; rfl))).refreshHead (by rw [headOf_enterLoading]; rfl)
  · exact k.of_standing (standing_setHead rfl rfl)

theorem DisplaySound.emptyQueue {s : State} (k : DisplaySound s) : DisplaySound { s with queue := [] } :=
  .of ⟨List.nodup_nil, List.Pairwise.nil, nofun⟩ k.follows

theorem DisplaySound.releaseHeads {s : State} (k : DisplaySound s) : DisplaySound (releaseHeads s) := by
  have absent : DisplaySound (Machine.forEach 64 (Machine.enterAbsent false) s) :=
    forEach_induct (P := DisplaySound) _ s k fun h _ ht => ht.enterAbsent false h
  unfold Machine.releaseHeads
  generalize Machine.forEach 64 (Machine.enterAbsent false) s = u at absent ⊢
  exact (absent.of_view (displayView_lists u [] none)).emptyQueue

theorem DisplaySound.testHead {s : State} (k : DisplaySound s) (index : Byte) : DisplaySound (testHead index s).state := by
  unfold Machine.testHead; split
  · exact k
  · split
    · exact k
    · split
      · exact k
      · exact k.setHead rfl rfl rfl rfl

theorem DisplaySound.restoreHead {s : State} (k : DisplaySound s) (index : Byte) :
    DisplaySound (restoreHead index s).state := by
  unfold Machine.restoreHead; split
  · exact k
  · next h _ =>
    split
    · exact k
    · exact ((k.settling h).enterJoining (headOf s h).abilities).setHead rfl rfl rfl rfl

end Sys2Proof.Machine
end

section
/-! What leaves displays as they are: the monitors, the route engine but for a publication, the slots of a frame and the
pair unit. -/

namespace Sys2Proof.Machine

/-! ## The route engine -/

/-- A run does not show before its table is published (R48). -/
theorem displayView_engine {s : State} {g : Engine} (table : g.table = s.engine.table) :
    displayView { s with engine := g } = displayView s :=
  Prod.ext rfl (funext fun k => displayFor_engine table s.link k)

theorem displayView_startRun (s : State) : displayView (startRun s) = displayView s := displayView_engine rfl

theorem displayView_handChange (c : ChangeClass) (s : State) : displayView (handChange c s) = displayView s := by
  obtain ⟨g, e⟩ := handChange_frame c s
  have table := (handChange_table c s).1
  rw [e] at table ⊢
  exact displayView_engine table

theorem displayView_handIf (c : Option ChangeClass) (s : State) : displayView (handIf c s) = displayView s := by
  cases c with
  | none => rfl
  | some c => exact displayView_handChange c s

theorem displayView_abandonRun (s : State) : displayView (abandonRun s) = displayView s := displayView_engine rfl

theorem displayView_endSweep (s : State) : displayView (endSweep s) = displayView s := by
  unfold endSweep; split
  · dsimp only; split
    · exact displayView_abandonRun s
    · split <;> exact displayView_engine rfl
  · rfl

theorem displayView_endSelection (s : State) : displayView (endSelection s) = displayView s := by
  unfold endSelection; split
  · split
    · exact displayView_abandonRun s
    · exact displayView_engine rfl
  · rfl

/-! ## Exits and the gate scanner -/

theorem displayView_forEach {n : Nat} {f : Fin n → State → State} (h : ∀ i s, displayView (f i s) = displayView s)
    (s : State) : displayView (forEach n f s) = displayView s :=
  forEach_induct (P := fun t => displayView t = displayView s) f s rfl fun i t e => (h i t).trans e

theorem displayView_foldl {β : Type} {f : State → β → State} (h : ∀ s b, displayView (f s b) = displayView s)
    (l : List β) (s : State) : displayView (l.foldl f s) = displayView s :=
  foldl_induct (P := fun t => displayView t = displayView s) f l s rfl fun t b e => (h t b).trans e

theorem displayView_setExitRt (e : ExitId) (r : ExitRt) (s : State) : displayView (setExitRt e r s) = displayView s := rfl
theorem displayView_setZoneRt (z : ZoneId) (r : ZoneRt) (s : State) : displayView (setZoneRt z r s) = displayView s := rfl
theorem displayView_reachTime (n : Nat) (s : State) : displayView (reachTime n s) = displayView s := rfl

theorem displayView_reevalExit (hand : Bool) (e : ExitId) (s : State) :
    displayView (reevalExit hand e s) = displayView s := by
  unfold reevalExit; dsimp only; split
  · split
    · rw [displayView_handChange, displayView_offer, displayView_setExitRt]
    · rw [displayView_offer, displayView_setExitRt]
  · rfl

theorem displayView_reevalExits (hand : Bool) (s : State) : displayView (reevalExits hand s) = displayView s :=
  displayView_forEach (displayView_reevalExit hand) s

theorem displayView_reevalZoneExits (z : ZoneId) (s : State) : displayView (reevalZoneExits z s) = displayView s :=
  displayView_forEach (fun e s => by split; exacts [displayView_reevalExit true e s, rfl]) s

theorem displayView_takeContact (e : ExitId) (c : ContactState) (s : State) :
    displayView (takeContact e c s) = displayView s := by
  unfold takeContact; rw [displayView_reevalExit, displayView_setExitRt]

theorem displayView_handContact (p : PositionId) (s : State) : displayView (handContact p s) = displayView s :=
  displayView_forEach (fun e s => by split; exacts [displayView_takeContact _ _ _, rfl]) s

theorem displayView_copyContact (e : ExitId) (s : State) : displayView (copyContact e s) = displayView s := by
  unfold copyContact; split
  · split
    · exact displayView_takeContact _ _ _
    · rfl
  · rfl

theorem displayView_gateScan (levels : BitVec 32) (s : State) : displayView (gateScan levels s) = displayView s := by
  unfold gateScan; dsimp only
  rw [displayView_forEach displayView_copyContact, displayView_foldl fun s p => displayView_handContact p s]; rfl

theorem displayView_exitOverride (index value : Byte) (s : State) :
    displayView (exitOverride index value s).state = displayView s := by
  unfold exitOverride; split
  · rfl
  · split
    · rfl
    · split
      · rfl
      · dsimp only [taken]; rw [displayView_reevalExit, displayView_setExitRt]

theorem displayView_writeBias (e : ExitId) (b : Nat) (s : State) : displayView (writeBias e b s) = displayView s := by
  unfold writeBias; dsimp only; split
  · split
    · rw [displayView_handChange, displayView_setExitRt]
    · rfl
  · rfl

theorem displayView_exitBias (index : Byte) (value : Half) (s : State) :
    displayView (exitBias index value s).state = displayView s := by
  unfold exitBias; split
  · rfl
  · split
    · rfl
    · exact displayView_writeBias _ _ s

/-! ## Zones -/

theorem displayView_requestAlarm (z : ZoneId) (s : State) : displayView (requestAlarm z s) = displayView s := by
  unfold requestAlarm; split <;> rfl

theorem displayView_changeZone (z : ZoneId) (new : ZoneState) (cause : ZoneCause) (s : State) :
    displayView (changeZone z new cause s) = displayView s := by
  unfold changeZone; dsimp only; split
  · rw [displayView_requestAlarm, displayView_reevalZoneExits, displayView_handIf, displayView_offer, displayView_setZoneRt]
  · rw [displayView_reevalZoneExits, displayView_handIf, displayView_offer, displayView_setZoneRt]

theorem displayView_judgeClear (z : ZoneId) (level : Byte) (s : State) :
    displayView (judgeClear z level s) = displayView s := by
  unfold judgeClear; split
  · rw [displayView_changeZone]; split <;> rfl
  · rfl

theorem displayView_judgeSuspect (z : ZoneId) (level : Byte) (s : State) :
    displayView (judgeSuspect z level s) = displayView s := by
  unfold judgeSuspect; split
  · rw [displayView_changeZone]; rfl
  · split
    · rfl
    · split <;> rfl

theorem displayView_judge (z : ZoneId) (level : Byte) (s : State) : displayView (judge z level s) = displayView s := by
  unfold judge; split
  · exact displayView_judgeClear z level s
  · exact displayView_judgeSuspect z level s
  · split
    · rfl
    · rw [displayView_changeZone]; rfl
  · split
    · rw [displayView_changeZone]; rfl
    · rfl
  · rw [displayView_judgeClear, displayView_changeZone]

theorem displayView_takeReading (z : ZoneId) (level : Byte) (s : State) :
    displayView (takeReading z level s) = displayView s := by
  have restarted (u : State) : displayView (restartSilence z u) = displayView u := by unfold restartSilence; split <;> rfl
  unfold takeReading; rw [restarted, displayView_judge, displayView_setZoneRt]

theorem displayView_takeReadings (entries : List (Byte × Byte)) (s : State) :
    displayView (takeReadings entries s).2 = displayView s := by
  induction entries generalizing s with
  | nil => rfl
  | cons e rest ih =>
    unfold takeReadings; split
    · rw [ih, displayView_takeReading]
    · exact ih s

theorem displayView_zoneReadings (entries : List (Byte × Byte)) (s : State) :
    displayView (zoneReadings entries s).state = displayView s := by
  unfold zoneReadings; split
  · rfl
  · exact displayView_takeReadings entries s

theorem displayView_confirmZone (index : Byte) (s : State) : displayView (confirmZone index s).state = displayView s := by
  unfold confirmZone; split
  · rfl
  · dsimp only [taken]; split
    · rfl
    · rw [displayView_changeZone]; rfl

theorem displayView_confirmExpiry (z : ZoneId) (s : State) : displayView (confirmExpiry z s) = displayView s := by
  unfold confirmExpiry; split
  · rfl
  · dsimp only; split
    · rw [displayView_changeZone]; rfl
    · rfl

theorem displayView_clearHoldExpiry (z : ZoneId) (s : State) : displayView (clearHoldExpiry z s) = displayView s := by
  unfold clearHoldExpiry; split
  · rfl
  · dsimp only; split
    · rw [displayView_changeZone]; split <;> rfl
    · rfl

theorem displayView_silenceExpiry (z : ZoneId) (s : State) : displayView (silenceExpiry z s) = displayView s := by
  unfold silenceExpiry; split
  · rfl
  · dsimp only; split
    · rw [displayView_changeZone]; rfl
    · rfl

theorem displayView_enterGuard (s : State) : displayView (enterGuard s) = displayView s := by
  have silences : displayView (guardSilences s) = displayView s :=
    displayView_forEach (fun z t => by unfold guardSilence; split <;> rfl) s
  unfold enterGuard requestOnEntry; split
  · rw [displayView_requestAlarm]; exact silences
  · exact silences

theorem displayView_restartGuard (s : State) : displayView (restartGuard s) = displayView s := by
  unfold restartGuard; split
  · rw [displayView_startRun, displayView_enterGuard]
  · rfl

theorem displayView_loadBias (e : ExitId) (s : State) : displayView (loadBias e s) = displayView s := by
  unfold loadBias; split <;> rfl

theorem displayView_restartExit (e : ExitId) (s : State) : displayView (restartExit e s) = displayView s := by
  unfold restartExit; split
  · rw [displayView_reevalExit, displayView_setExitRt]
  · rfl

/-- A request of the monitors, the queries and the notice filter. -/
theorem displayView_requestAct_monitors {i : Instr} (s : State) (o : ownerOf i = .monitors) :
    displayView (requestAct i s).state = displayView s := by
  have same {t : State} (e : t = s) : displayView t = displayView s := congrArg displayView e
  cases i
  case zoneReadings => exact displayView_zoneReadings _ s
  case confirmZone => exact displayView_confirmZone _ s
  case exitOverride => exact displayView_exitOverride _ _ s
  case exitBias => exact displayView_exitBias _ _ s
  case setNoticeFilter =>
    show displayView (setNoticeFilter _ s).state = _
    unfold setNoticeFilter; split <;> rfl
  case clearNoticeLoss => rfl
  case getPoint => exact same (getPoint_state _ s)
  case getZone => exact same (getZone_state _ s)
  case getExit => exact same (getExit_state _ s)
  case getHead => exact same (getHead_state _ s)
  case getStatus | getStrangers | confirmTimerExpiry | clearHoldExpiry | zoneSilenceExpiry | gateScan | sweepEnd
    | selectionEnd | publication | panelByteReceived | transmitFrameEnd | unknownType => rfl
  all_goals exact absurd o nofun

/-! ## The slots of a frame -/

/-- The start of a frame clears held marks (R91). -/
theorem displayView_startFrame (start : Nat) (s : State) : displayView (startFrame start s) = displayView s := by
  refine displayView_queue (s := s) ?_
  show clearHeld (clearHeld s.queue) = clearHeld s.queue
  unfold clearHeld; rw [List.map_map]; rfl

theorem displayView_sendBeat (start : Nat) (s : State) : displayView (sendBeat start s) = displayView s :=
  displayView_startFrame start s

theorem displayView_sendReleaseAll (start : Nat) (s : State) : displayView (sendReleaseAll start s) = displayView s :=
  displayView_startFrame start s

theorem displayView_startSlot (k : SlotId) (s : State) : displayView (startSlot k s) = displayView s := by
  unfold startSlot; split <;> rfl

theorem displayView_sendCommand (k : SlotId) (kind : SlotKind) (a : Byte) (h : Option HeadId) (c : BusCommand) (s : State) :
    displayView (sendCommand k kind a h c s) = displayView s := rfl

theorem displayView_enrolSlot (s : State) : displayView (enrolSlot s) = displayView s := by
  unfold enrolSlot; split
  · rw [displayView_sendCommand, displayView_startSlot]
  · rfl

theorem displayView_partnerSlot (s : State) : displayView (partnerSlot s) = displayView s := by
  unfold partnerSlot; split
  · rw [displayView_sendCommand, displayView_startSlot]
  · rfl

theorem displayView_updateSlot (k : SlotId) (s : State) : displayView (updateSlot k s) = displayView s := by
  unfold updateSlot; split
  · split
    · rw [displayView_sendCommand, displayView_startSlot]
    · exact displayView_startSlot k s
  · rfl

theorem displayView_pollSlot (k : SlotId) (s : State) : displayView (pollSlot k s) = displayView s := by
  unfold pollSlot; split
  · split
    · split
      · rw [displayView_sendCommand, displayView_startSlot]
      · exact displayView_startSlot k s
    · rfl
  · rfl

/-! ## The pair unit -/

theorem PairMove.displayView {s t : State} (k : PairMove s t) : displayView t = displayView s := by
  obtain ⟨p, l, rfl⟩ := k; rfl

theorem displayView_observePartner (s : State) : displayView (observePartner s) = displayView s := by
  obtain ⟨p, l, e⟩ := observePartner_frame s
  rw [e]; rfl

theorem displayView_silenceEnds (ph : Bool) (s : State) : displayView (silenceEnds ph s) = displayView s := by
  obtain ⟨p, l, n, e⟩ := silenceEnds_frame ph s
  rw [e]; rfl

theorem displayView_guardEnds (ph : Bool) (s : State) : displayView (guardEnds ph s) = displayView s := by
  unfold guardEnds; split
  · dsimp only; split
    · unfold enterDuty; rw [displayView_sendBeat]; rfl
    · split
      · rfl
      · split <;> rfl
  · rfl

theorem displayView_headsActed (a : Byte) (c : BusCommand) (w : WindowClass) (s : State) :
    displayView (headsActed a c w s) = displayView s := by
  unfold headsActed; split <;> rfl

theorem displayView_headAnnounced (serial : Serial) (s : State) : displayView (headAnnounced serial s) = displayView s := by
  unfold headAnnounced; split <;> rfl

theorem displayView_observeQuery (f : BusFrame) (s : State) : displayView (observeQuery f s) = displayView s := by
  unfold observeQuery; split
  · dsimp only; split
    · split
      · refine (compareDigests_moves _ _).displayView.trans ?_
        exact displayView_observePartner s
      · exact displayView_observePartner s
    · exact displayView_observePartner s
  · rfl

/-! ## Completion and observation -/

theorem DisplaySound.enrolOutcome {s : State} (k : DisplaySound s) (w : WindowClass) : DisplaySound (enrolOutcome w s) := by
  have flagged : DisplaySound { s with bus := { s.bus with contention := w == .garbled } } := k.of_view rfl
  unfold Machine.enrolOutcome; dsimp only; split
  · exact (flagged.of_view (displayView_headAnnounced _ _)).announce _ _
  · exact flagged

theorem DisplaySound.handOutcome {s : State} (k : DisplaySound s) (t : Transaction) (w : WindowClass) :
    DisplaySound (handOutcome t w s) := by
  unfold Machine.handOutcome; split
  · exact k
  · exact k
  · exact k.enrolOutcome w
  · exact k.of_view (partnerOutcome_moves w s).displayView
  · exact (k.of_view (displayView_headsActed _ _ w s)).ownOutcome _ _ w
  · exact k

theorem DisplaySound.completeTransaction {s : State} (k : DisplaySound s) (w : Window) :
    DisplaySound (completeTransaction w s) := by
  unfold Machine.completeTransaction; split
  · exact DisplaySound.handOutcome (s := { s with bus := { s.bus with inFlight := none } }) (k.of_view rfl) _ _
  · exact k

theorem displayView_alignFrame (b : Byte) (s : State) : displayView (alignFrame b s) = displayView s :=
  displayView_startFrame s.now s

theorem displayView_eachHears (f : Heard → Device → Device) (x : Heard) (s : State) :
    displayView (eachHears f x s) = displayView s := rfl

theorem DisplaySound.takeBroadcast {s : State} (k : DisplaySound s) (c : BusCommand) (w : Window) :
    DisplaySound (takeBroadcast c w s) := by
  unfold Machine.takeBroadcast; split
  · exact (k.of_view (displayView_alignFrame _ s)).of_view (displayView_eachHears _ _ _)
  · exact (k.of_view (displayView_alignFrame _ s)).releaseHeads.of_view (displayView_eachHears _ _ _)
  · exact k.enrolOutcome _
  · exact k

theorem DisplaySound.observeBroadcast {s : State} (k : DisplaySound s) (f : BusFrame) (w : Window) :
    DisplaySound (observeBroadcast f w s) := by
  have observed := k.of_view (displayView_observePartner s)
  unfold Machine.observeBroadcast; split
  · split
    · split
      · exact observed.takeBroadcast _ w
      · exact observed
    · exact observed
  · exact k

theorem DisplaySound.takeObserved {s : State} (k : DisplaySound s) (a : Byte) (c : BusCommand) (w : Window) :
    DisplaySound (takeObserved a c w s) := by
  have heard : DisplaySound (headsActed a c (classify a c w) (eachHead (hearCommand a c) s)) :=
    k.of_view (displayView_headsActed a c _ (eachHead (hearCommand a c) s))
  unfold Machine.takeObserved; dsimp only; split
  · split
    · exact heard.observedOutcome _ _ _
    · exact heard
  · exact heard

theorem DisplaySound.observeTransaction {s : State} (k : DisplaySound s) (f : BusFrame) (w : Window) :
    DisplaySound (observeTransaction f w s) := by
  have observed := k.of_view (displayView_observePartner s)
  unfold Machine.observeTransaction; split
  · split
    · exact observed.takeObserved _ _ w
    · exact observed
  · exact k

theorem DisplaySound.restartBus {s : State} (k : DisplaySound s) : DisplaySound (restartBus s).state := by
  have released := k.releaseHeads
  unfold Machine.restartBus clearBus; split
  · dsimp only [taken]
    generalize Machine.releaseHeads s = u at released ⊢
    exact released.of_view rfl
  · exact k

/-- A request of the bus, the heads and the pair. -/
theorem DisplaySound.requestAct_bus {i : Instr} {s : State} (k : DisplaySound s) (o : ownerOf i = .bus) :
    DisplaySound (requestAct i s).state := by
  cases i
  case testHead => exact k.testHead _
  case restoreHead => exact k.restoreHead _
  case restartBus => exact k.restartBus
  case yield =>
    show DisplaySound (yieldBus s).state
    unfold yieldBus; split <;> exact k.of_view rfl
  case isolate =>
    show DisplaySound (isolateUnit s).state
    unfold isolateUnit; split <;> exact k.of_view rfl
  case beat | releaseAll | enrol | partnerSlot | updateSlot | pollSlot | transactionComplete | yieldingEnd | isolateSlotEnd
    | pairSilenceExpiry | claimGuardExpiry | observedBroadcast | observedTransaction | partnerQueryObserved
    | partnerQueryMissed => exact k
  all_goals exact absurd o nofun

/-- An event of the bus, the heads and the pair. -/
theorem DisplaySound.eventOf_bus {c : Instr} {s : State} (k : DisplaySound s) (o : ownerOf c = .bus) :
    DisplaySound (eventOf c s) := by
  have either {p : Prop} [Decidable p] {t : State} (view : displayView t = displayView s) :
      DisplaySound (if p then t else s) := by split; exacts [k.of_view view, k]
  cases c
  case beat => exact either (displayView_sendBeat _ s)
  case releaseAll => exact either (displayView_sendReleaseAll _ s)
  case enrol => exact k.of_view (displayView_enrolSlot s)
  case partnerSlot => exact k.of_view (displayView_partnerSlot s)
  case updateSlot => exact k.of_view (displayView_updateSlot _ s)
  case pollSlot => exact k.of_view (displayView_pollSlot _ s)
  case transactionComplete => exact k.completeTransaction _
  case yieldingEnd => exact either rfl
  case isolateSlotEnd => exact either rfl
  case pairSilenceExpiry => exact k.of_view (displayView_silenceEnds _ s)
  case claimGuardExpiry => exact k.of_view (displayView_guardEnds _ s)
  case observedBroadcast => exact k.observeBroadcast _ _
  case observedTransaction => exact k.observeTransaction _ _
  case partnerQueryObserved => exact k.of_view (displayView_observeQuery _ s)
  case partnerQueryMissed => exact either rfl
  case testHead | restoreHead | restartBus | yield | isolate => exact k
  all_goals exact absurd o nofun

end Sys2Proof.Machine
end

section
/-! Changes of mode, publications, settings and the map requests keep the display invariant: each either does not show, or
recomputes every display, or acts in SETUP, where a display is of its kind alone (R72, R79, R80). -/

namespace Sys2Proof.Machine

/-! ## Recomputations -/

/-- Heads, desired displays and queue are untouched. -/
theorem Held.congr {s t : State} (k : Held s) (desired : t.selector.desired = s.selector.desired) (queue : t.queue = s.queue)
    (heads : t.heads = s.heads) : Held t := by
  refine k.of_standing ?_
  unfold standing desiredOf headOf; rw [desired, queue, heads]

/-- The table is replaced, and every display follows it (R61, R62 step 1). -/
theorem Held.publishTable {s : State} (k : Held s) (table : RouteTable) : DisplaySound (publishTable table s) := by
  have replaced : Held (replaceTable (withTargets s.map table) s) := k.congr rfl rfl rfl
  have shows := replaced.recomputeAll
  unfold Machine.publishTable; dsimp only
  generalize Machine.recomputeAll (replaceTable (withTargets s.map table) s) = u at shows ⊢
  exact (shows.offer _).of_view (displayView_engine rfl)

theorem DisplaySound.publish {s : State} (k : DisplaySound s) : DisplaySound (publish s) := by
  have after (u : State) : displayView (afterPublication u) = displayView u := by
    unfold afterPublication; split <;> exact displayView_engine rfl
  unfold Machine.publish; split
  · exact (k.held.publishTable _).of_view (after _)
  · exact k

/-- DISARM completes a publication, and clears the engine (R68). -/
theorem Held.disarmEngine {s : State} (k : Held s) : Held (disarmEngine s) := by
  have cleared {u : State} (k : Held u) : Held (clearEngine u) := k.congr rfl rfl rfl
  unfold Machine.disarmEngine; split
  · exact cleared (k.publishTable _).held
  · exact cleared k

/-- A change of mode ends with a recomputation of all displays (R151 step 4). -/
theorem Held.changeMode {s : State} (k : Held s) {new : Mode} {cause : ModeCause} {outcome : ModeOutcome}
    {zone : Option ZoneId} {act : State → State} (h : ∀ u, Held u → Held (act u)) :
    DisplaySound (changeMode new cause outcome zone act s) := by
  have moded : Held { s with mode := new } := k.congr rfl rfl rfl
  unfold Machine.changeMode
  exact (h _ (moded.of_view (displayView_offer _ _))).recomputeAll

theorem DisplaySound.completeValidation {s : State} (k : DisplaySound s) : DisplaySound (completeValidation s) := by
  unfold Machine.completeValidation; split
  · split
    · have flagged : Held (setResult .passed { s with map := { s.map with validated := true } }) := k.held.congr rfl rfl rfl
      have loaded := flagged.of_view (displayView_forEach displayView_loadBias _)
      unfold passValidation
      exact loaded.changeMode fun u b => (b.of_view (displayView_startRun u)).of_view (displayView_enterGuard _)
    · next f _ =>
      have flagged : Held (setResult (.failed f) { s with map := { s.map with validated := false } }) :=
        k.held.congr rfl rfl rfl
      exact flagged.changeMode fun _ b => b
  · exact k

theorem DisplaySound.autoAlarm {s : State} (k : DisplaySound s) : DisplaySound (autoAlarm s) := by
  unfold Machine.autoAlarm; split
  · exact k
  · next z rest _ =>
    have taken : DisplaySound { s with alarmRequests := rest } := k.of_view rfl
    dsimp only; split
    · exact taken.held.changeMode fun _ b => b
    · exact taken

theorem DisplaySound.arm {s : State} (k : DisplaySound s) : DisplaySound (arm s).state := by
  unfold Machine.arm; split <;> dsimp only [taken, refuse]
  · exact (k.held.congr (t := setResult .running s) rfl rfl rfl).changeMode fun _ b => b
  · exact k

theorem DisplaySound.disarm {s : State} (k : DisplaySound s) : DisplaySound (disarm s).state := by
  unfold Machine.disarm; split <;> dsimp only [taken, refuse]
  · exact k.held.changeMode fun _ b => b.disarmEngine
  · exact (k.held.congr (t := setResult .cancelled s) rfl rfl rfl).changeMode fun _ b => b
  · exact k
  · exact k

theorem DisplaySound.alarm {s : State} (k : DisplaySound s) : DisplaySound (alarm s).state := by
  unfold Machine.alarm; split <;> dsimp only [taken, refuse]
  · exact k.held.changeMode fun _ b => b
  · exact k

theorem DisplaySound.standDown {s : State} (k : DisplaySound s) : DisplaySound (standDown s).state := by
  unfold Machine.standDown; split
  · exact k
  · split <;> dsimp only [taken, refuse]
    · exact k
    · exact k.held.changeMode fun u b => b.of_view (displayView_enterGuard u)

/-- A setting that leaves PHASE_UNIT does not show (R79). -/
theorem displayView_timing {s : State} {t : Timing} (unit : t.phaseUnit = s.timing.phaseUnit) :
    displayView { s with timing := t } = displayView s := by
  refine Prod.ext rfl (funext fun h => ?_)
  have phase (r : Route) : phaseFor { s with timing := t } r = phaseFor s r := by unfold phaseFor; rw [unit]
  show displayFor { s with timing := t } h = displayFor s h
  unfold displayFor; simp only [phase]; rfl

theorem DisplaySound.setTiming {s : State} (k : DisplaySound s) (setting : Byte) (value : Half) :
    DisplaySound (setTiming setting value s).state := by
  unfold Machine.setTiming; split
  · split
    · exact k
    · next t _ =>
      dsimp only [taken]
      unfold storeTiming; dsimp only; split
      · next unit => exact k.of_view (displayView_timing unit)
      · exact (k.held.congr (t := { s with timing := t }) rfl rfl rfl).recomputeAll
  · exact k

/-- RESTART in its blocks leaves the heads and their displays (R158 step 3). -/
theorem Held.restartBlocks {s : State} (k : Held s) : Held (restartBlocks s) := by
  have reset : Held { s with zones := Vector.replicate 64 ZoneRt.reset, scanner := Vector.replicate 32 Contact.reset } :=
    k.congr rfl rfl rfl
  have restarted := forEach_induct (P := Held) restartExit _ reset fun e u b => b.of_view (displayView_restartExit e u)
  unfold Machine.restartBlocks; dsimp only
  generalize forEach 24 restartExit { s with
    zones := Vector.replicate 64 ZoneRt.reset, scanner := Vector.replicate 32 Contact.reset } = u at restarted ⊢
  exact restarted.congr (by simp) (by simp) (by simp)

theorem DisplaySound.restart {s : State} (k : DisplaySound s) : DisplaySound (restart s).state := by
  by_cases h : s.mode = .alarm
  · unfold Machine.restart; rw [if_pos h]; exact k
  · have quieted : Held (cancelled s) := by unfold cancelled; split <;> exact k.held.congr rfl rfl rfl
    rw [restart_eq s h]; dsimp only [taken]
    exact quieted.restartBlocks.changeMode fun u b => b.of_view (displayView_restartGuard u)

/-- An arrow follows an aisle's end and bearing, not its blocked flag (R73). -/
theorem displayView_setBlocked (x : AisleId) (b : Bool) (s : State) :
    displayView (setAisleRec x { look s.map.aisles x with blocked := b } s) = displayView s := by
  refine Prod.ext rfl (funext fun h => ?_)
  have leaving (y : AisleId) (p : PointId) :
      leavingBearing (look (store s.map.aisles x { look s.map.aisles x with blocked := b }) y) p
        = leavingBearing (look s.map.aisles y) p := by
    rw [look_store]; split
    · next e => rw [← e]; rfl
    · rfl
  have arrow (r : Route) : arrowFor (setAisleRec x { look s.map.aisles x with blocked := b } s) h r = arrowFor s h r := by
    unfold arrowFor setAisleRec
    dsimp only
    split
    · rw [leaving]; rfl
    · rfl
  show displayFor (setAisleRec x { look s.map.aisles x with blocked := b } s) h = displayFor s h
  unfold displayFor; simp only [arrow]; rfl

theorem displayView_writeBlocked (x : AisleId) (b : Bool) (s : State) :
    displayView (writeBlocked x b s) = displayView s := by
  unfold writeBlocked; split
  · rfl
  · rw [displayView_handChange, displayView_setBlocked]

theorem DisplaySound.blockAisle {s : State} (k : DisplaySound s) (index : Half) :
    DisplaySound (blockAisle index s).state := by
  unfold Machine.blockAisle; split
  · exact k
  · exact k.of_view (displayView_writeBlocked _ true s)

theorem DisplaySound.openAisle {s : State} (k : DisplaySound s) (index : Half) : DisplaySound (openAisle index s).state := by
  unfold Machine.openAisle; split
  · exact k
  · exact k.of_view (displayView_writeBlocked _ false s)

/-- A request of the mode controller, or of a blocked flag. -/
theorem DisplaySound.requestAct_modes {i : Instr} {s : State} (k : DisplaySound s) (o : ownerOf i = .modes) :
    DisplaySound (requestAct i s).state := by
  cases i
  case restart => exact k.restart
  case arm => exact k.arm
  case disarm => exact k.disarm
  case alarm => exact k.alarm
  case standDown => exact k.standDown
  case setTiming => exact k.setTiming _ _
  case blockAisle => exact k.blockAisle _
  case openAisle => exact k.openAisle _
  case validationComplete | autoAlarmRequest => exact k
  all_goals exact absurd o nofun

/-! ## Map requests, which are taken in SETUP alone -/

/-- In SETUP every display is of kind STANDBY, without arrow and phase (R72, R73, R79). -/
theorem displayFor_standby {s : State} (setup : s.mode = .setup) (h : HeadId) :
    displayFor s h = ⟨.standby, none, scriptFor s h .standby, 0⟩ := by
  unfold displayFor; dsimp only
  rw [setup, kindFor_setup]; rfl

/-- In SETUP displays read the selector and the head records alone. -/
theorem displayView_inSetup {s t : State} (setup : s.mode = .setup) (mode : t.mode = s.mode)
    (selector : t.selector = s.selector) (queue : t.queue = s.queue) (heads : t.heads = s.heads) :
    displayView t = displayView s := by
  refine Prod.ext ?_ (funext fun h => ?_)
  · show standing t = standing s
    unfold standing desiredOf headOf; rw [selector, queue, heads]
  · show displayFor t h = displayFor s h
    rw [displayFor_standby setup, displayFor_standby (mode.trans setup)]
    unfold scriptFor headOf alarmClass; rw [selector, heads, mode]

/-- An accepted map request clears the flag and re-evaluates the exits (R11, R40). -/
theorem displayView_acceptMap (s : State) : displayView (acceptMap s) = displayView s := by
  unfold acceptMap; rw [displayView_reevalExits]; rfl

theorem displayView_defineExitRt (d : Bool) (e : ExitId) (s : State) : displayView (defineExitRt d e s) = displayView s := by
  unfold defineExitRt; split <;> rfl

theorem displayView_removeExitRt (e : ExitId) (s : State) : displayView (removeExitRt e s) = displayView s := by
  unfold removeExitRt; dsimp only; split <;> rfl

theorem displayView_removeIfDefined (e : ExitId) (s : State) : displayView (removeIfDefined e s) = displayView s := by
  unfold removeIfDefined; split
  · exact displayView_removeExitRt e s
  · rfl

theorem removeIfDefined_mode (e : ExitId) (s : State) : (removeIfDefined e s).mode = s.mode := by
  obtain ⟨⟨z, a, sc, x, g, d, q, l, n, moved⟩, -, -⟩ := removeIfDefined_monitor e s
  rw [moved]

/-- The map in SETUP, with the display invariant. -/
structure SetupSound (s : State) : Prop where
  mode : s.mode = .setup
  displays : DisplaySound s

theorem SetupSound.written {s t : State} (k : SetupSound s) (mode : t.mode = s.mode) (selector : t.selector = s.selector)
    (queue : t.queue = s.queue) (heads : t.heads = s.heads) : SetupSound t :=
  ⟨mode.trans k.mode, k.displays.of_view (displayView_inSetup k.mode mode selector queue heads)⟩

theorem SetupSound.accept {s : State} (k : SetupSound s) : DisplaySound (acceptMap s) :=
  k.displays.of_view (displayView_acceptMap s)

theorem HeadsMove.mode {s t : State} (h : HeadsMove s t) : t.mode = s.mode := by
  obtain ⟨m, d, q, l, rfl⟩ := h; rfl

/-- An unplaced head is ABSENT, without a display (R10, R71). -/
theorem SetupSound.unplace {s : State} (k : SetupSound s) (h : HeadId) : SetupSound (unplace h s) := by
  unfold Machine.unplace; split
  · have undone : SetupSound (setPlacement h { placementOf s h with defined := false } s) := k.written rfl rfl rfl rfl
    exact ⟨(enterAbsent_moves false h _).mode.trans undone.mode, undone.displays.enterAbsent false h⟩
  · exact k

theorem SetupSound.clearedMap {s : State} (k : SetupSound s) : DisplaySound (clearedMap s) := by
  have undone : SetupSound (forEach 64 Machine.unplace s) :=
    forEach_induct (P := SetupSound) _ s k fun h _ ht => ht.unplace h
  have removed : SetupSound (forEach 24 removeIfDefined (forEach 64 Machine.unplace s)) :=
    forEach_induct (P := SetupSound) _ _ undone fun e t b =>
      ⟨(removeIfDefined_mode e t).trans b.mode, b.displays.of_view (displayView_removeIfDefined e t)⟩
  unfold Machine.clearedMap emptyTables
  generalize forEach 24 removeIfDefined (forEach 64 Machine.unplace s) = u at removed ⊢
  exact removed.displays.of_view (displayView_inSetup removed.mode rfl rfl rfl rfl)

/-- Every edit of the map in SETUP keeps the displays with their inputs (R12, R77, R80, R84). -/
theorem SetupSound.edit {s t : State} (k : SetupSound s) (edit : MapEdit s t) : DisplaySound t := by
  cases edit with
  | none => exact k.displays
  | point p r => exact (k.written (t := followPoint p (setPointRec p r s)) rfl rfl rfl rfl).accept
  | aisle x r _ => exact (k.written (t := setAisleRec x r s) rfl rfl rfl rfl).accept
  | defineExit e r _ =>
    have written : SetupSound (setExitRec e r s) := k.written rfl rfl rfl rfl
    exact (written.displays.of_view (displayView_defineExitRt _ e _)).of_view (displayView_acceptMap _)
  | removeExit e =>
    have written : SetupSound (setExitRec e { look s.map.exits e with defined := false } s) := k.written rfl rfl rfl rfl
    exact (written.displays.of_view (displayView_removeExitRt e _)).of_view (displayView_acceptMap _)
  | defineZone z r _ =>
    refine SetupSound.accept (k.written ?_ ?_ ?_ ?_) <;> split <;> rfl
  | removeZone z => exact SetupSound.accept (k.written rfl rfl rfl rfl)
  | place h r _ =>
    have written : SetupSound (setPlacement h r s) := k.written rfl rfl rfl rfl
    exact (written.displays.of_view (displayView_lists _ _ s.heads.lastFaulty)).of_view (displayView_acceptMap _)
  | unplace h => exact (k.unplace h).accept
  | clear => exact k.clearedMap
  | script i steps _ =>
    have written : Held (writeScript i steps s) := k.displays.held.congr rfl rfl rfl
    have accepted := written.of_view (displayView_acceptMap _)
    exact (forEach_induct (P := Held) reloadHead _ accepted fun h _ b => b.reloadHead h).recomputeAll
  | kindMap i n =>
    have written : Held (writeKindMap i n s) := k.displays.held.congr rfl rfl rfl
    exact (written.of_view (displayView_acceptMap _)).recomputeAll

/-! ## Every command -/

theorem DisplaySound.requestAct {s : State} (k : DisplaySound s) (i : Instr) : DisplaySound (requestAct i s).state := by
  cases o : ownerOf i with
  | reset => rw [requestAct_reset s o]; exact k
  | modes => exact k.requestAct_modes o
  | map =>
    rcases requestAct_map s o with e | ⟨setup, edit⟩
    · rw [e]; exact k
    · exact SetupSound.edit ⟨setup, k⟩ edit
  | bus => exact k.requestAct_bus o
  | monitors => exact k.of_view (displayView_requestAct_monitors s o)

theorem DisplaySound.eventOf_monitors {c : Instr} {s : State} (k : DisplaySound s) (o : ownerOf c = .monitors) :
    DisplaySound (eventOf c s) := by
  cases c
  case confirmTimerExpiry => exact k.of_view (displayView_confirmExpiry _ s)
  case clearHoldExpiry => exact k.of_view (displayView_clearHoldExpiry _ s)
  case zoneSilenceExpiry => exact k.of_view (displayView_silenceExpiry _ s)
  case gateScan => exact k.of_view (displayView_gateScan _ s)
  case sweepEnd => exact k.of_view (displayView_endSweep s)
  case selectionEnd => exact k.of_view (displayView_endSelection s)
  case publication => exact k.publish
  case zoneReadings | confirmZone | exitOverride | exitBias | setNoticeFilter | clearNoticeLoss | getPoint | getZone
    | getExit | getHead | getStatus | getStrangers | panelByteReceived | transmitFrameEnd | unknownType => exact k
  all_goals exact absurd o nofun

theorem DisplaySound.eventOf {s : State} (k : DisplaySound s) (c : Instr) : DisplaySound (eventOf c s) := by
  cases o : ownerOf c with
  | reset =>
    obtain ⟨speed, pairEn, role, rfl⟩ := ownerOf_reset o
    exact hardReset_displays ..
  | modes =>
    cases c
    case validationComplete => exact k.completeValidation
    case autoAlarmRequest => exact k.autoAlarm
    case restart | arm | disarm | alarm | standDown | setTiming | blockAisle | openAisle => exact k
    all_goals exact absurd o nofun
  | map => rw [eventOf_map s o]; exact k
  | bus => exact k.eventOf_bus o
  | monitors => exact k.eventOf_monitors o

end Sys2Proof.Machine

namespace Sys2Proof.Proofs

open Sys2Proof Sys2Proof.Machine

/-- Settles O56: each request and each event of the part's own keeps the displays and the queue. -/
theorem stepKeepsDisplays : Obligations.StepKeepsDisplays := by
  unfold Obligations.StepKeepsDisplays
  intro s t hs e
  exact step_keeps e hs (fun _ _ k => k.of_view rfl) (fun _ _ k => k.of_view rfl) (fun _ _ k => k.of_view rfl)
    (fun i _ k => k.requestAct i) fun c _ k => k.eventOf c

end Sys2Proof.Proofs
end

section
/-! The display of a head from its inputs: kind, arrow, script and phase (R72 to R79). -/

namespace Sys2Proof.Machine

/-! ## Kind (R72) -/

theorem kindFor_resting {m : Mode} (h : m = .setup ∨ m = .validating) (r : Route) : kindFor m r = .standby := if_pos h

section Working
variable {m : Mode} {r : Route} (working : ¬(m = .setup ∨ m = .validating))
include working

theorem kindFor_exitHere (h : r.status = .exitHere) : kindFor m r = .exitHere := by
  unfold kindFor; rw [if_neg working, h]

theorem kindFor_noRoute (h : r.status = .noRoute ∨ r.status = .undefined) : kindFor m r = .noRoute := by
  unfold kindFor; rw [if_neg working]
  rcases h with h | h <;> rw [h]

theorem kindFor_route (h : r.status = .routed) (clear : ¬∃ b, r.best = some b ∧ b.smoke ≠ 0) :
    kindFor m r = .route := by
  unfold kindFor; rw [if_neg working, h]
  dsimp only; split
  · next b e => exact if_pos (by_contra fun smoke => clear ⟨b, e, smoke⟩)
  · rfl

theorem kindFor_routeSmoke (h : r.status = .routed) (smoky : ∃ b, r.best = some b ∧ b.smoke ≠ 0) :
    kindFor m r = .routeSmoke := by
  obtain ⟨b, e, smoke⟩ := smoky
  unfold kindFor; rw [if_neg working, h, e]; exact if_neg smoke

end Working

/-! ## Arrow (R73, R74) -/

/-- The arrow chosen is one of least rank. -/
theorem chooseArrow_eq_argmin (r : Nat) (usable : List ArrowId) :
    chooseArrow r usable = usable.argmin (arrowRank r) := by
  unfold chooseArrow List.argmin
  congr 1
  funext best k
  cases best <;> rfl

theorem rightHand_iff (k : ArrowId) : rightHand k = true ↔ 1 ≤ k.val ∧ k.val ≤ 3 := by
  simp [rightHand]

/-- Two arrows as far from ahead as each other lie on either side of it, one of them on the right hand (Table 4.1). -/
theorem rightHand_of_mirrored : ∀ k j : ArrowId, j ≠ k →
    circularDistance (2 * k.val) 0 = circularDistance (2 * j.val) 0 →
    rightHand k = true ∨ rightHand j = true := by decide

/-- What the ranks of two arrows say: distance, then distance from ahead, then the hand (R74). -/
theorem nearer_of_arrowRank_le {r : Nat} {k j : ArrowId} (least : arrowRank r k ≤ arrowRank r j) (other : j ≠ k) :
    circularDistance r (2 * k.val) < circularDistance r (2 * j.val)
    ∨ circularDistance r (2 * k.val) = circularDistance r (2 * j.val)
      ∧ (circularDistance (2 * k.val) 0 < circularDistance (2 * j.val) 0
        ∨ circularDistance (2 * k.val) 0 = circularDistance (2 * j.val) 0 ∧ 1 ≤ k.val ∧ k.val ≤ 3) := by
  have mirrored := rightHand_of_mirrored k j other
  have ahead (i : ArrowId) : circularDistance (2 * i.val) 0 ≤ 8 := by unfold circularDistance; omega
  have aheadK := ahead k
  have aheadJ := ahead j
  unfold arrowRank at least
  rw [← rightHand_iff]
  by_cases right : rightHand k = true
  · rw [if_pos right] at least
    simp only [right, and_true]
    split at least <;> omega
  · have left (same : circularDistance (2 * k.val) 0 = circularDistance (2 * j.val) 0) : rightHand j = true :=
      (mirrored same).resolve_left right
    rw [if_neg right] at least
    split at least
    · omega
    · next leftJ =>
      have apart : circularDistance (2 * k.val) 0 ≠ circularDistance (2 * j.val) 0 := fun same => leftJ (left same)
      omega

theorem announcedArrows_bit {r : Head} {k : Nat} :
    (announcedArrows r).getLsbD k = true ↔ ∃ a, r.abilities = some a ∧ a.arrows.getLsbD k = true := by
  unfold announcedArrows; split
  · next a e => simp [e]
  · next e => simp [e]

/-- The usable arrows of a head: announced and not faulty (R74). -/
def usableOf (r : Head) : List ArrowId := usableArrows (announcedArrows r) r.faultMask.arrows

theorem mem_usableOf {r : Head} {k : ArrowId} :
    k ∈ usableOf r ↔ (∃ a, r.abilities = some a ∧ a.arrows.getLsbD k.val = true) ∧
      r.faultMask.arrows.getLsbD k.val = false := by
  rw [← announcedArrows_bit]; simp [usableOf, usableArrows]

/-- The direction of an aisle as a head's placement faces it (R73). -/
def bearingTo (s : State) (h : HeadId) (x : AisleId) : Nat :=
  relativeBearing (leavingBearing (look s.map.aisles x) (placementOf s h).point) (placementOf s h).facing

/-- The arrow for the next aisle is the usable one of least rank, where there is one (R73, R74). -/
theorem arrowFor_next {s : State} {h : HeadId} {r : Route} {x : AisleId} (next : r.next = some x) :
    arrowFor s h r = (usableOf (headOf s h)).argmin (arrowRank (bearingTo s h x)) := by
  unfold arrowFor; rw [next]; exact chooseArrow_eq_argmin _ _

/-! ## Script and phase (R76, R78, R79) -/

theorem scriptFor_fits {s : State} {h : HeadId} {k : DisplayKind} {steps : List ScriptStep}
    (found : scriptOf s.selector (look s.selector.kindMap (kindMapEntry k (alarmClass s))) = some steps)
    (fits : steps.length ≤ capacityOf (headOf s h)) :
    scriptFor s h k = look s.selector.kindMap (kindMapEntry k (alarmClass s)) := by
  unfold scriptFor; dsimp only
  rw [found]; exact if_pos fits

theorem scriptFor_none {s : State} {h : HeadId} {k : DisplayKind}
    (misfit : ¬∃ steps, scriptOf s.selector (look s.selector.kindMap (kindMapEntry k (alarmClass s))) = some steps
      ∧ steps.length ≤ capacityOf (headOf s h)) : scriptFor s h k = 0 := by
  unfold scriptFor; dsimp only; split
  · next steps found => exact if_neg fun fits => misfit ⟨steps, found, fits⟩
  · rfl

theorem phaseFor_val {s : State} {r : Route} {b : Pair} (best : r.best = some b) :
    (phaseFor s r).val = b.walk / s.timing.phaseUnit % 64 := by
  unfold phaseFor; rw [best]; rfl

end Sys2Proof.Machine

namespace Sys2Proof.Proofs

open Sys2Proof Sys2Proof.Machine

/-- Settles O40: the kind by Table 4.2's rows, the arrow as the one of least rank, then script and phase. -/
theorem displayFollowsRules : Obligations.DisplayFollowsRules := by
  unfold Obligations.DisplayFollowsRules
  intro s h d pl r resting smoky usable away
  have kind : d.kind = kindFor s.mode r := rfl
  have arrow (onward : d.kind = .route ∨ d.kind = .routeSmoke) : d.arrow = arrowFor s h r := if_pos onward
  have phase (onward : d.kind = .route ∨ d.kind = .routeSmoke) : d.phase = phaseFor s r := if_pos onward
  refine ⟨fun rest => kind.trans (kindFor_resting rest r), fun work here => kind.trans (kindFor_exitHere work here),
    fun work none => kind.trans (kindFor_noRoute work none),
    fun work routed clear => kind.trans (kindFor_route work routed clear),
    fun work routed smoke => kind.trans (kindFor_routeSmoke work routed smoke), fun notRoute notSmoke => ?_,
    fun b onward best => ?_, fun x onward next => ?_, fun ⟨steps, found, fits⟩ => ?_, fun misfit => ?_⟩
  · have still : ¬(d.kind = .route ∨ d.kind = .routeSmoke) := fun onward => onward.elim notRoute notSmoke
    exact ⟨if_neg still, if_neg still⟩
  · rw [phase onward]; exact phaseFor_val best
  · have least : d.arrow = (usableOf (headOf s h)).argmin (arrowRank (bearingTo s h x)) :=
      (arrow onward).trans (arrowFor_next next)
    refine ⟨fun faulty => ?_, fun ⟨j, mine⟩ => ?_⟩
    · exact least.trans
        (List.argmin_eq_none.mpr (List.eq_nil_iff_forall_not_mem.mpr fun k m => faulty k (mem_usableOf.mp m)))
    · cases chosen : (usableOf (headOf s h)).argmin (arrowRank (bearingTo s h x)) with
      | none =>
        exact absurd (mem_usableOf.mpr mine) (List.eq_nil_iff_forall_not_mem.mp (List.argmin_eq_none.mp chosen) j)
      | some k =>
        exact ⟨k, least.trans chosen, mem_usableOf.mp (List.argmin_mem chosen), fun i mineI other =>
          nearer_of_arrowRank_le (List.le_of_mem_argmin (mem_usableOf.mpr mineI) chosen) other⟩
  · exact scriptFor_fits found fits
  · exact scriptFor_none misfit

end Sys2Proof.Proofs
end

section
/-! SET TIMING (R79, R156). -/

namespace Sys2Proof.Machine

/-- The settings with a range, each by its code (Table 9.1). -/
def rangedSettings : List (Nat × Nat × Nat) :=
  [(0, 2, 30), (1, 10, 600), (2, 5, 120), (4, 0, 2000), (5, 0, 50), (6, 10, 5000), (7, 600, 5000)]

/-- A setting with a range holds the end of it that is nearer to the value sent, and the other settings stay (R156). -/
theorem timingWith_ranged {code low high : Nat} (v : Nat) (t : Timing)
    (range : (code, low, high) ∈ rangedSettings) :
    ∃ u, timingWith code v t = some u ∧ timingValue u code = clampTo low high v
      ∧ ∀ other, other < 8 → other ≠ code → timingValue u other = timingValue t other := by
  simp only [rangedSettings, List.mem_cons, Prod.mk.injEq, List.not_mem_nil, or_false] at range
  rcases range with ⟨rfl, rfl, rfl⟩ | ⟨rfl, rfl, rfl⟩ | ⟨rfl, rfl, rfl⟩ | ⟨rfl, rfl, rfl⟩ | ⟨rfl, rfl, rfl⟩
    | ⟨rfl, rfl, rfl⟩ | ⟨rfl, rfl, rfl⟩ <;>
  exact ⟨_, rfl, rfl, fun other below ne => by interval_cases other <;> trivial⟩

theorem range_nonempty {code low high : Nat} (range : (code, low, high) ∈ rangedSettings) : low ≤ high := by
  simp only [rangedSettings, List.mem_cons, Prod.mk.injEq, List.not_mem_nil, or_false] at range
  omega

theorem timingWith_autoAlarm {v : Nat} (flag : v ≤ 1) (t : Timing) :
    timingWith 3 v t = some { t with autoAlarm := decide (v = 1) } := by
  interval_cases v <;> rfl

theorem timingValue_autoAlarm {v : Nat} (flag : v ≤ 1) (t : Timing) :
    timingValue { t with autoAlarm := decide (v = 1) } 3 = v := by
  interval_cases v <;> rfl

theorem timingWith_none {code v : Nat} (bad : (code = 3 ∧ 2 ≤ v) ∨ 8 ≤ code) (t : Timing) :
    timingWith code v t = none := by
  unfold timingWith
  split
  case h_4 =>
    split
    · omega
    · omega
    · rfl
  case h_9 => rfl
  all_goals omega

/-- A value is clamped to itself exactly within the range. -/
theorem clampTo_eq_self {low high v : Nat} (range : low ≤ high) : clampTo low high v = v ↔ low ≤ v ∧ v ≤ high := by
  unfold clampTo; omega

theorem clampTo_nearer {low high v : Nat} (range : low ≤ high) :
    clampTo low high v = if v < low then low else if high < v then high else v := by
  unfold clampTo; split_ifs <;> omega

section Timing
variable {setting : Byte} {value : Half} {s : State} (hm : s.mode = .setup ∨ s.mode = .guard)
include hm

theorem setTiming_stored {u : Timing} (h : timingWith setting.toNat value.toNat s.timing = some u) :
    setTiming setting value s =
      taken (if timingValue u setting.toNat = value.toNat then .done else .clamped) (storeTiming u s) := by
  unfold setTiming; rw [if_pos hm, h]

theorem setTiming_badValue (h : timingWith setting.toNat value.toNat s.timing = none) :
    setTiming setting value s = refuse .badValue s := by
  unfold setTiming; rw [if_pos hm, h]

end Timing

theorem setTiming_wrongMode {setting : Byte} {value : Half} {s : State} (hm : s.mode = .validating ∨ s.mode = .alarm) :
    setTiming setting value s = refuse .wrongMode s :=
  if_neg fun taken => by rcases hm with m | m <;> rw [m] at taken <;> simp at taken

theorem storeTiming_same {u : Timing} {s : State} (same : u.phaseUnit = s.timing.phaseUnit) :
    storeTiming u s = { s with timing := u } := if_pos same

theorem storeTiming_changed {u : Timing} {s : State} (changed : u.phaseUnit ≠ s.timing.phaseUnit) :
    storeTiming u s = recomputeAll { s with timing := u } := if_neg changed

theorem storeTiming_link (u : Timing) (s : State) : (storeTiming u s).link = s.link := by
  by_cases h : u.phaseUnit = s.timing.phaseUnit
  · rw [storeTiming_same h]
  · rw [storeTiming_changed h]; exact recomputeAll_link _

/-- What SET TIMING leaves of the part `s`, with the settings `u`: the displays are recomputed where PHASE_UNIT is another
(R79). -/
def Retimed (s : State) (u : Timing) (t : State) : Prop :=
  t.timing = u
    ∧ if u.phaseUnit = s.timing.phaseUnit then { t with link := s.link, timing := s.timing } = s
      else Recomputed s t ∧ { withDisplays s t with link := s.link, timing := s.timing } = s

theorem storeTiming_retimed (u : Timing) (s : State) (l : Link) :
    Retimed s u { storeTiming u (begun s) with link := l } := by
  by_cases h : u.phaseUnit = s.timing.phaseUnit
  · rw [storeTiming_same (s := begun s) h]
    exact ⟨rfl, by rw [if_pos h]; rfl⟩
  · rw [storeTiming_changed (s := begun s) h]
    obtain ⟨d, q, m, shown⟩ := recomputeAll_shown { begun s with timing := u } l
    have again : Recomputed s (recomputeAll { begun s with timing := u }) :=
      recomputed_from (u := { begun s with timing := u }) rfl rfl (recomputeAll_recomputed _)
    generalize recomputeAll { begun s with timing := u } = r at shown again ⊢
    refine ⟨by rw [shown], ?_⟩
    rw [if_neg h]
    exact ⟨again, by rw [shown]; rfl⟩

/-- A SET TIMING that is taken. -/
theorem serves_setTiming {tag setting : Byte} {value : Half} {s : State} {code : ReplyCode} {P : State → Prop} {u : Timing}
    (hr : Ready s) (hm : s.mode = .setup ∨ s.mode = .guard)
    (new : timingWith setting.toNat value.toNat s.timing = some u)
    (hc : (if timingValue u setting.toNat = value.toNat then ReplyCode.done else .clamped) = code)
    (hP : ∀ t, Retimed s u t → P t) : Serves (.setTiming tag setting value) s code [] [] P :=
  serves_by rfl (exec_setTiming tag setting value s) hr (setTiming_stored (s := begun s) hm new) hc (by simp [taken])
    (storeTiming_link u (begun s)) fun l => hP _ (storeTiming_retimed u s l)

end Sys2Proof.Machine

namespace Sys2Proof.Proofs
open Sys2Proof Sys2Proof.Machine

/-- Settles O17: the settings with a range are stored as `timingWith_ranged` says, and what is left of the part is what
`Retimed` says of the settings stored. -/
theorem setTimingStores : Obligations.SetTimingStores := by
  intro tag setting value s hr
  refine ⟨fun low high range hm => ?_, fun code flag hm => ?_, fun bad hm => ?_, fun hm => ?_⟩
  · obtain ⟨u, new, stored, others⟩ := timingWith_ranged value.toNat s.timing range
    have nonempty := range_nonempty range
    refine serves_setTiming hr hm new (by simp only [stored, clampTo_eq_self nonempty]) fun t ⟨timing, rest⟩ => ?_
    rw [timing]
    exact ⟨stored.trans (clampTo_nearer nonempty), others, rest⟩
  · have new := timingWith_autoAlarm flag s.timing
    rw [← code] at new
    refine serves_setTiming hr hm new (if_pos ?_) fun t ⟨timing, rest⟩ => ?_
    · rw [code]; exact timingValue_autoAlarm flag s.timing
    · rw [if_pos rfl] at rest
      rw [← timing, ← rest]
  · exact refuses_by rfl (exec_setTiming tag setting value s) hr
      (setTiming_badValue (s := begun s) hm (timingWith_none bad s.timing))
  · exact refuses_by rfl (exec_setTiming tag setting value s) hr (setTiming_wrongMode (s := begun s) hm)

end Sys2Proof.Proofs
end

section
/-! What sign heads do at a BEAT, an acknowledged DISPLAY and an INVITE (R85 to R87, R111, R114). -/

namespace Sys2Proof.Machine

/-! ## Scripts at a beat -/

/-- A script whose step 0 is a LIGHT begins with it (R86). -/
theorem startScript_light {steps : List ScriptStep} {arrow glyph hold : Nat}
    (first : steps.head? = some (.light arrow glyph hold)) : startScript steps = ⟨0, hold, [], arrow, glyph⟩ := by
  rw [List.head?_eq_getElem?] at first
  unfold startScript runSteps
  rw [first]

/-- A head that holds the script of its display alone, and waits for none, may run it (R86, R111). -/
theorem runnable_only {dev : Device} {d : Display} {steps : List ScriptStep} (shows : dev.display = some d)
    (ready : dev.awaiting = none) (script : 1 ≤ d.script.val) (held : dev.scripts = [(d.script.val, steps)]) :
    runnable dev = some steps := by
  unfold runnable
  rw [shows, ready, held]
  dsimp only
  rw [if_neg (by simp; omega)]
  simp

theorem beatScript_restarts {beat : Byte} {dev : Device} {d : Display} {steps : List ScriptStep}
    (shows : dev.display = some d) (runs : runnable dev = some steps) (clock : scriptClock beat d = 0) :
    beatScript beat dev = { dev with playing := some (startScript steps) } := by
  unfold beatScript
  rw [shows, runs]
  exact if_pos clock

/-- A beat changes what runs alone. -/
theorem beatScript_plays (beat : Byte) (dev : Device) : ∃ p, beatScript beat dev = { dev with playing := p } := by
  unfold beatScript; split
  · split
    · exact ⟨_, rfl⟩
    · exact ⟨_, rfl⟩
  · exact ⟨_, rfl⟩

/-! ## A BEAT at a head (R114) -/

/-- A head with a BEAT counted and its script stepped. -/
theorem hearBeat_eq (x : Heard) (dev : Device) :
    ∃ p, beatScript x.beat { noteBeat x dev with beats := dev.beats + 1 }
        = { noteBeat x dev with beats := dev.beats + 1, playing := p }
      ∧ hearBeat x dev =
        if dev.address.isSome ∧ 10 ≤ dev.beats + 1 then
          dropAddress { noteBeat x dev with beats := dev.beats + 1, playing := p }
        else { noteBeat x dev with beats := dev.beats + 1, playing := p } := by
  obtain ⟨p, plays⟩ := beatScript_plays x.beat { noteBeat x dev with beats := dev.beats + 1 }
  refine ⟨p, plays, ?_⟩
  unfold hearBeat
  rw [plays]; rfl

theorem hearBeat_serial (x : Heard) (dev : Device) : (hearBeat x dev).serial = dev.serial := by
  obtain ⟨p, -, e⟩ := hearBeat_eq x dev
  rw [e]; split <;> rfl

/-- The tenth BEAT without a command at its address: a head has no address after it. -/
theorem hearBeat_tenth (x : Heard) {dev : Device} (tenth : 9 ≤ dev.beats) :
    (hearBeat x dev).address = none
      ∧ (dev.address.isSome → (hearBeat x dev).generation = none ∧ (hearBeat x dev).display = none) := by
  obtain ⟨p, -, e⟩ := hearBeat_eq x dev
  rw [e]
  cases has : dev.address.isSome with
  | true =>
    rw [if_pos ⟨rfl, by omega⟩]
    exact ⟨rfl, fun _ => ⟨rfl, rfl⟩⟩
  | false =>
    rw [if_neg (fun h => nomatch h.1)]
    exact ⟨Option.isNone_iff_eq_none.mp (Option.isSome_eq_false_iff.mp has), nofun⟩

/-- A head that has been addressed within ten BEATs keeps its address, and its script steps. -/
theorem hearBeat_counted (x : Heard) {dev : Device} (few : dev.beats < 9) :
    hearBeat x dev = beatScript x.beat { noteBeat x dev with beats := dev.beats + 1 } := by
  obtain ⟨p, plays, e⟩ := hearBeat_eq x dev
  rw [e, if_neg (by omega), plays]

/-- What an addressed head keeps at a BEAT. -/
theorem hearBeat_kept (x : Heard) {dev : Device} (few : dev.beats < 9) :
    (hearBeat x dev).address = dev.address ∧ (hearBeat x dev).beats = dev.beats + 1
      ∧ (hearBeat x dev).display = dev.display := by
  obtain ⟨p, plays⟩ := beatScript_plays x.beat { noteBeat x dev with beats := dev.beats + 1 }
  rw [hearBeat_counted x few, plays]
  exact ⟨rfl, rfl, rfl⟩

/-- A script restarts where its clock is 0 (R85). -/
theorem hearBeat_restarts (x : Heard) {dev : Device} {d : Display} {steps : List ScriptStep} (few : dev.beats < 9)
    (shows : dev.display = some d) (runs : runnable dev = some steps) (clock : scriptClock x.beat d = 0) :
    (hearBeat x dev).playing = some (startScript steps) := by
  rw [hearBeat_counted x few, beatScript_restarts (dev := { noteBeat x dev with beats := dev.beats + 1 }) shows runs clock]

/-- A BEAT that is sent is heard by every head on the bus. -/
theorem exec_beat_heard {s : State} (may : mayStartFrame s = true) (beat : s.bus.releaseAll = false) :
    ∃ t, exec .beat s = .next t ∧ t.devices = s.devices.map (hearBeat (broadcastHeard s)) := by
  refine ⟨_, exec_beat s, ?_⟩
  rw [may, beat]; rfl

/-! ## An acknowledged DISPLAY (R87) -/

theorem HeadsMove.devices {s t : State} (h : HeadsMove s t) : t.devices = s.devices := by
  obtain ⟨m, d, q, l, rfl⟩ := h; rfl

/-- What an acknowledged display leaves running (R87). -/
theorem shown_eq (d : Display) (dev : Device) :
    shown d dev =
      { dev with
        display := some d, awaiting := none
        playing := match dev.display with
          | some old => if old.script = d.script ∧ old.phase = d.phase then dev.playing else none
          | none => none } := by
  unfold shown
  cases dev.display with
  | none => rfl
  | some old => simp

theorem acted_display {address : Byte} {dev : Device} (at_ : dev.address = some address) (d : Display) :
    acted address (.display d) dev = shown d dev := by
  unfold acted meant; rw [at_]; simp

/-- Every head on the bus has acted on a DISPLAY whose window held an acknowledgement. -/
theorem completeTransaction_display {s : State} {h : HeadId} {d : Display} {address : Byte} {w : Window} {st : AckStatus}
    (awaits : Awaits s h (.display d) address) (ack : classify address (.display d) w = .valid (.ackStatus st)) :
    (completeTransaction w s).devices = s.devices.map (acted address (.display d)) := by
  obtain ⟨⟨slot, kind, _, _, _⟩, flight, rfl, rfl, rfl⟩ := awaits
  unfold completeTransaction
  rw [flight]
  dsimp only
  rw [ack]
  exact (ownOutcome_moves ..).devices

/-! ## A head first heard (R105, R114) -/

theorem headAnnounced_new {serial : Serial} {s : State} (new : ∀ dev ∈ s.devices, dev.serial ≠ serial) :
    (headAnnounced serial s).devices = s.devices ++ [newcomer s serial] := by
  unfold headAnnounced
  rw [if_neg]
  simpa using new

theorem completeTransaction_announcement {s : State} {tr : Transaction} {x : Bool} {w : Window} {serial : Serial}
    {a : Abilities} (flight : s.bus.inFlight = some tr) (invite : tr.command = .invite x)
    (announces : classify tr.address tr.command w = .valid (.announcement serial a))
    (new : ∀ dev ∈ s.devices, dev.serial ≠ serial) :
    (completeTransaction w s).devices = s.devices ++ [newcomer s serial] := by
  unfold completeTransaction
  rw [flight]
  dsimp only
  rw [announces]
  unfold handOutcome
  rw [invite]
  exact ((announce_moves ..).devices).trans (headAnnounced_new new)

/-- A newcomer has no address and lights its glyph, blinking in ALARM (log 44). -/
theorem newcomer_shows (s : State) (serial : Serial) :
    (newcomer s serial).serial = serial ∧ (newcomer s serial).address = none
      ∧ arrowShown (newcomer s serial) = none
      ∧ glyphLevel (newcomer s serial) = match s.heard with
        | some heard => if heard.alarm = true ∧ heard.beat.toNat % 2 = 1 then 0 else 15
        | none => 15 := by
  unfold newcomer
  cases s.heard with
  | none => exact ⟨rfl, rfl, rfl, rfl⟩
  | some heard => exact ⟨rfl, rfl, rfl, rfl⟩

end Sys2Proof.Machine

namespace Sys2Proof.Proofs
open Sys2Proof Sys2Proof.Machine

/-- Settles O48: the heads map a BEAT and an acknowledgement each over its own record, and an unknown head that announces
joins them as `newcomer`. -/
theorem headsHearBeat : Obligations.HeadsHearBeat := by
  refine ⟨fun s dev on may beat => ?_, fun s h d address w st dev awaits on at_ ack => ?_,
    fun s tr x w serial a flight invite announces new => ?_⟩
  · obtain ⟨t, run, heard⟩ := exec_beat_heard may beat
    have hears : hearBeat (broadcastHeard s) dev ∈ t.devices := heard ▸ List.mem_map_of_mem on
    refine ⟨t, _, run, hears, hearBeat_serial _ dev, hearBeat_tenth _, fun few => ?_⟩
    obtain ⟨address, count, display⟩ := hearBeat_kept (broadcastHeard s) few
    refine ⟨address, count, display, fun d steps shows ready script held clock => ?_⟩
    have restarts := hearBeat_restarts (broadcastHeard s) few shows (runnable_only shows ready script held) clock
    exact ⟨restarts, fun arrow glyph hold first => by rw [restarts, startScript_light first]⟩
  · refine ⟨_, exec_transactionComplete w s, ?_⟩
    rw [completeTransaction_display awaits ack]
    exact List.mem_map.mpr ⟨dev, on, (acted_display at_ d).trans (shown_eq d dev)⟩
  · exact ⟨_, _, exec_transactionComplete w s, completeTransaction_announcement flight invite announces new,
      newcomer_shows s serial⟩

end Sys2Proof.Proofs
end

section
/-! What the update queue makes of a new desired display and of an acknowledgement: its two sections, the entries of other
heads, and what is found for them afterwards (R88 to R95). -/

namespace Sys2Proof.Machine

variable {h k : HeadId} {q : List Entry} {e x : Entry} {confirmed desired : Option Display} {d w : Display}

/-! ## Sections -/

/-- The URGENT or the ORDINARY section of a queue (R88). -/
def classOf (u : Bool) (q : List Entry) : List Entry := q.filter fun e => e.urgent == u

/-- A queue that keeps its order is its URGENT section followed by its ORDINARY one (R88). -/
theorem urgentFirst.sections (order : urgentFirst q) :
    (q.filter fun x => x.urgent) ++ (q.filter fun x => !x.urgent) = q := by
  induction q with
  | nil => rfl
  | cons a q ih =>
    obtain ⟨first, rest⟩ := List.pairwise_cons.mp order
    by_cases urgent : a.urgent = true
    · simp only [List.filter_cons, urgent, if_true, Bool.not_true, Bool.false_eq_true, if_false, List.cons_append, ih rest]
    · have later : ∀ b ∈ q, ¬b.urgent = true := fun b m => mt (first b m) urgent
      have none : q.filter (fun x => x.urgent) = [] := List.filter_eq_nil_iff.mpr later
      have all : q.filter (fun x => !x.urgent) = q := List.filter_eq_self.mpr fun b m => by simpa using later b m
      simp [urgent, none, all]

/-- An entry joins its section at the tail, and the other section stands (R88). -/
theorem classOf_joinQueue (u : Bool) (e : Entry) (q : List Entry) :
    classOf u (joinQueue e q) = if e.urgent = u then classOf u q ++ [e] else classOf u q := by
  unfold joinQueue classOf
  cases urgent : e.urgent <;> cases u <;> simp [List.filter_append, urgent, List.filter_filter]

theorem classOf_withoutHead (u : Bool) (h : HeadId) (q : List Entry) :
    classOf u (withoutHead h q) = withoutHead h (classOf u q) := List.filter_comm ..

/-- A section that holds no entry of a head is the same without that head. -/
theorem withoutHead_absent (absent : ∀ x ∈ q, x.head ≠ h) : withoutHead h q = q :=
  List.filter_eq_self.mpr fun x m => by simpa using absent x m

/-! ## The entries of other heads -/

theorem withoutHead_idem (h : HeadId) (q : List Entry) : withoutHead h (withoutHead h q) = withoutHead h q :=
  withoutHead_absent fun _ m => (mem_withoutHead.mp m).2

theorem withoutHead_joinQueue (order : urgentFirst q) (own : e.head = h) :
    withoutHead h (joinQueue e q) = withoutHead h q := by
  unfold joinQueue; split
  · have dropped : withoutHead h (e :: q.filter fun x => !x.urgent) = withoutHead h (q.filter fun x => !x.urgent) :=
      List.filter_cons_of_neg (by simp [own])
    have joined := congrArg (withoutHead h) order.sections
    unfold withoutHead at dropped joined ⊢
    rw [List.filter_append, dropped, ← List.filter_append, joined]
  · unfold withoutHead; simp [List.filter_append, own]

theorem withoutHead_mapEntry {f : Entry → Entry} (keeps : ∀ e, (f e).head = e.head) :
    withoutHead h (mapEntry h f q) = withoutHead h q := by
  unfold withoutHead mapEntry
  induction q with
  | nil => rfl
  | cons a q ih =>
    by_cases own : a.head = h
    · simp [own, keeps, ih]
    · simp [own, ih]

/-- A new desired display leaves the entries of other heads, and their order (R90). -/
theorem withoutHead_queueDisplay (order : urgentFirst q) :
    withoutHead h (queueDisplay h confirmed d q) = withoutHead h q := by
  unfold queueDisplay; split
  · exact withoutHead_idem h q
  · split
    · exact withoutHead_joinQueue order rfl
    · next e found =>
      split
      · exact (withoutHead_joinQueue (e := { e with display := d, urgent := true }) order.withoutHead
          (entryOf_some found).2).trans (withoutHead_idem h q)
      · exact withoutHead_mapEntry fun _ => rfl

/-! ## A new desired display (R90) -/

theorem isUrgent_some (c d : Display) : isUrgent (some c) d = decide (c.kind ≠ d.kind ∨ c.arrow ≠ d.arrow) := by
  unfold isUrgent
  by_cases kind : c.kind = d.kind <;> by_cases arrow : c.arrow = d.arrow <;> simp [kind, arrow, bne]

theorem queueDisplay_confirmed (same : confirmed = some d) : queueDisplay h confirmed d q = withoutHead h q := if_pos same

theorem queueDisplay_new (new : confirmed ≠ some d) (absent : entryOf q h = none) :
    queueDisplay h confirmed d q = joinQueue (newEntry h confirmed d) q := by
  unfold queueDisplay; rw [if_neg new, absent]

/-- An entry whose class rises leaves its place for the tail of the URGENT section. -/
theorem queueDisplay_raised (new : confirmed ≠ some d) (found : entryOf q h = some e) (urgent : isUrgent confirmed d = true)
    (ordinary : e.urgent = false) :
    queueDisplay h confirmed d q = joinQueue ⟨h, d, true, e.held⟩ (withoutHead h q) := by
  obtain ⟨-, rfl⟩ := entryOf_some found
  unfold queueDisplay; rw [if_neg new, found]; dsimp only; rw [urgent, ordinary]; rfl

/-- An entry that keeps its class keeps its place. -/
theorem queueDisplay_inPlace (new : confirmed ≠ some d) (found : entryOf q h = some e)
    (same : isUrgent confirmed d = false ∨ e.urgent = true) :
    queueDisplay h confirmed d q = mapEntry h (fun e => { e with display := d }) q := by
  have still : (isUrgent confirmed d && !e.urgent) = false := by
    rcases same with ordinary | urgent
    · rw [ordinary]; rfl
    · rw [urgent]; simp
  unfold queueDisplay; rw [if_neg new, found]; dsimp only; rw [still, if_neg Bool.false_ne_true]

/-- The sections after an entry has risen: the URGENT one has held no entry of the head. -/
theorem classOf_queueDisplay_raised (one : oneEach q) (new : confirmed ≠ some d) (found : entryOf q h = some e)
    (urgent : isUrgent confirmed d = true) (ordinary : e.urgent = false) :
    classOf true (queueDisplay h confirmed d q) = classOf true q ++ [⟨h, d, true, e.held⟩]
      ∧ classOf false (queueDisplay h confirmed d q) = withoutHead h (classOf false q) := by
  have absent : ∀ x ∈ classOf true q, x.head ≠ h := fun x m own => by
    obtain ⟨mine, high⟩ := List.mem_filter.mp m
    rw [one.eq_entryOf found mine own, ordinary] at high; cases high
  rw [queueDisplay_raised new found urgent ordinary, classOf_joinQueue, classOf_joinQueue, classOf_withoutHead,
    classOf_withoutHead, withoutHead_absent absent]
  exact ⟨rfl, rfl⟩

/-- The sections after a head without an entry has got one. -/
theorem classOf_queueDisplay_new (new : confirmed ≠ some d) (absent : entryOf q h = none) :
    classOf (isUrgent confirmed d) (queueDisplay h confirmed d q)
        = classOf (isUrgent confirmed d) q ++ [⟨h, d, isUrgent confirmed d, false⟩]
      ∧ classOf (!isUrgent confirmed d) (queueDisplay h confirmed d q) = classOf (!isUrgent confirmed d) q := by
  rw [queueDisplay_new new absent, classOf_joinQueue, classOf_joinQueue]
  exact ⟨if_pos rfl, if_neg (by simp [newEntry])⟩

/-- What a new desired display does to the queue: the cases of R90. -/
theorem queueDisplay_cases (one : oneEach q) (order : urgentFirst q) :
    oneEach (queueDisplay h confirmed d q) ∧ urgentFirst (queueDisplay h confirmed d q)
      ∧ withoutHead h (queueDisplay h confirmed d q) = withoutHead h q
      ∧ (confirmed = some d → queueDisplay h confirmed d q = withoutHead h q)
      ∧ (confirmed ≠ some d → entryOf q h = none →
        classOf (isUrgent confirmed d) (queueDisplay h confirmed d q)
            = classOf (isUrgent confirmed d) q ++ [⟨h, d, isUrgent confirmed d, false⟩]
          ∧ classOf (!isUrgent confirmed d) (queueDisplay h confirmed d q) = classOf (!isUrgent confirmed d) q)
      ∧ ∀ e, confirmed ≠ some d → entryOf q h = some e →
        (isUrgent confirmed d = true → e.urgent = false →
          classOf true (queueDisplay h confirmed d q) = classOf true q ++ [⟨h, d, true, e.held⟩]
            ∧ classOf false (queueDisplay h confirmed d q) = withoutHead h (classOf false q))
        ∧ (isUrgent confirmed d = false ∨ e.urgent = true →
          queueDisplay h confirmed d q = mapEntry h (fun e => { e with display := d }) q) :=
  ⟨one.queueDisplay, order.queueDisplay, withoutHead_queueDisplay order, queueDisplay_confirmed, classOf_queueDisplay_new,
    fun _ new found => ⟨classOf_queueDisplay_raised one new found, queueDisplay_inPlace new found⟩⟩

/-! ## An acknowledged display (R93, R95) -/

theorem queueAck_shown (found : entryOf q h = some e) (same : e.display = d) :
    queueAck h d desired q = withoutHead h q := by
  unfold queueAck; rw [found]; exact if_pos same

theorem queueAck_newer (found : entryOf q h = some e) (newer : e.display ≠ d) : queueAck h d desired q = q := by
  unfold queueAck; rw [found]; exact if_neg newer

theorem queueAck_settled (absent : entryOf q h = none) (settled : desired = none ∨ desired = some d) :
    queueAck h d desired q = q := by
  unfold queueAck; rw [absent]
  rcases settled with rfl | rfl
  · rfl
  · exact if_pos rfl

theorem queueAck_joins (absent : entryOf q h = none) (differs : w ≠ d) :
    queueAck h d (some w) q = queueDisplay h (some d) w q := by
  rw [queueDisplay_new (fun same => differs (Option.some.inj same).symm) absent]
  unfold queueAck; rw [absent]; exact if_neg differs

end Sys2Proof.Machine

namespace Sys2Proof.Proofs
open Sys2Proof Sys2Proof.Machine

/-- Settles O41: each case of R90 as an equation on the queue, read in its two sections, and each case of R93. -/
theorem queueTakesDisplays : Obligations.QueueTakesDisplays := by
  refine ⟨fun h confirmed d q one order => ?_, fun h d desired q _ => ?_⟩
  · have reached := queueDisplay_cases (h := h) (confirmed := confirmed) (d := d) one order
    cases confirmed with
    | none => exact reached
    | some c => rw [isUrgent_some] at reached; exact reached
  · refine ⟨fun e => queueAck_shown, fun e => queueAck_newer, queueAck_settled, fun w absent wanted differs => ?_⟩
    rw [wanted]; exact queueAck_joins absent differs

end Sys2Proof.Proofs
end

section
/-! What an outcome makes of one head: its record, the queue and the notices as one update, after which its display is
recomputed, dropped or left (sections 5 and 7). -/

namespace Sys2Proof.Machine

/-! ## The entries of other heads -/

/-- The queue changes for one head alone: the others find the entries they had (R88). -/
def KeepsOthers (h : HeadId) (q q' : List Entry) : Prop :=
  oneEach q → oneEach q' ∧ ∀ k, k ≠ h → entryOf q' k = entryOf q k

theorem KeepsOthers.refl (h : HeadId) (q : List Entry) : KeepsOthers h q q := fun one => ⟨one, fun _ _ => rfl⟩

theorem KeepsOthers.trans {h : HeadId} {q r u : List Entry} (a : KeepsOthers h q r) (b : KeepsOthers h r u) :
    KeepsOthers h q u := fun one =>
  have ⟨one', first⟩ := a one
  have ⟨one'', second⟩ := b one'
  ⟨one'', fun k n => (second k n).trans (first k n)⟩

/-- With one entry a head, a head finds an entry where the queue holds it. -/
theorem oneEach.entryOf_iff {q : List Entry} (one : oneEach q) {k : HeadId} {e : Entry} :
    entryOf q k = some e ↔ e ∈ q ∧ e.head = k := by
  refine ⟨entryOf_some, fun ⟨m, own⟩ => ?_⟩
  cases found : entryOf q k with
  | none => exact absurd own (entryOf_none.mp found e m)
  | some x => rw [one.eq_entryOf found m own]

/-- Queues of one entry a head that hold the same entries of other heads. -/
theorem KeepsOthers.of_mem {h : HeadId} {q q' : List Entry} (one : oneEach q → oneEach q')
    (same : ∀ e : Entry, e.head ≠ h → (e ∈ q' ↔ e ∈ q)) : KeepsOthers h q q' := fun was =>
  ⟨one was, fun k n => Option.ext fun e => by
    rw [(one was).entryOf_iff, was.entryOf_iff]
    exact and_congr_left fun own => same e (own ▸ n)⟩

section Queue
variable {h : HeadId} {q : List Entry} {e x : Entry}

theorem mem_joinQueue_other (own : e.head = h) (other : x.head ≠ h) : x ∈ joinQueue e q ↔ x ∈ q := by
  rw [mem_joinQueue]
  exact or_iff_right fun same => other (same ▸ own)

theorem mem_withoutHead_other (other : x.head ≠ h) : x ∈ withoutHead h q ↔ x ∈ q := by
  rw [mem_withoutHead]; exact and_iff_left other

theorem mem_mapEntry_other {f : Entry → Entry} (keeps : ∀ e, (f e).head = e.head) (other : x.head ≠ h) :
    x ∈ mapEntry h f q ↔ x ∈ q := by
  rw [← mem_withoutHead_other (q := mapEntry h f q) other, withoutHead_mapEntry keeps, mem_withoutHead_other other]

theorem mem_queueDisplay_other {confirmed : Option Display} {d : Display} (other : x.head ≠ h) :
    x ∈ queueDisplay h confirmed d q ↔ x ∈ q := by
  unfold queueDisplay; split
  · exact mem_withoutHead_other other
  · split
    · exact mem_joinQueue_other rfl other
    · next e found =>
      split
      · exact (mem_joinQueue_other (e := { e with display := d, urgent := true }) (entryOf_some found).2 other).trans
          (mem_withoutHead_other other)
      · exact mem_mapEntry_other (fun _ => rfl) other

theorem mem_queueAck_other {d : Display} {desired : Option Display} (other : x.head ≠ h) :
    x ∈ queueAck h d desired q ↔ x ∈ q := by
  unfold queueAck; split
  · split
    · exact mem_withoutHead_other other
    · rfl
  · split
    · split
      · rfl
      · exact mem_joinQueue_other rfl other
    · rfl

end Queue

theorem withoutHead_keeps (h : HeadId) (q : List Entry) : KeepsOthers h q (withoutHead h q) :=
  .of_mem (fun one => one.withoutHead) fun _ => mem_withoutHead_other

theorem queueDisplay_keeps (h : HeadId) (confirmed : Option Display) (d : Display) (q : List Entry) :
    KeepsOthers h q (queueDisplay h confirmed d q) :=
  .of_mem (fun one => one.queueDisplay) fun _ => mem_queueDisplay_other

theorem holdEntry_keeps (h : HeadId) (q : List Entry) : KeepsOthers h q (holdEntry h q) :=
  .of_mem (fun one => one.mapEntry fun _ => rfl) fun _ => mem_mapEntry_other fun _ => rfl

theorem ackedQueue_keeps (h : HeadId) (c : BusCommand) (s : State) : KeepsOthers h s.queue (ackedQueue h c s) := by
  unfold ackedQueue; split
  · exact .of_mem (fun one => one.queueAck) fun _ => mem_queueAck_other
  · exact .refl h s.queue

/-! ## Acting on one head -/

/-- A part's move acts on one head alone: on its record, its desired display, its queue entry and the link. -/
structure ActsOn (h : HeadId) (s t : State) : Prop where
  rewrites : ∃ f, RewritesHead h f s t
  desired : ∀ k, k ≠ h → desiredOf t k = desiredOf s k
  queue : KeepsOthers h s.queue t.queue

theorem ActsOn.refl (h : HeadId) (s : State) : ActsOn h s s := ⟨⟨_, .refl h s⟩, fun _ _ => rfl, .refl h _⟩

theorem ActsOn.trans {h : HeadId} {s t u : State} (a : ActsOn h s t) (b : ActsOn h t u) : ActsOn h s u := by
  obtain ⟨f, first⟩ := a.rewrites
  obtain ⟨g, second⟩ := b.rewrites
  exact ⟨⟨_, first.trans second⟩, fun k n => (b.desired k n).trans (a.desired k n), a.queue.trans b.queue⟩

theorem ActsOn.onlyHead {h : HeadId} {s t : State} (a : ActsOn h s t) : OnlyHead h s t := by
  obtain ⟨f, rewrites⟩ := a.rewrites
  refine ⟨fun k n => ⟨?_, a.desired k n, fun one => (a.queue one).2 k n⟩, ?_⟩
  · rw [rewrites.headOf, if_neg (Ne.symm n)]
  · obtain ⟨r, d, q, l, rfl⟩ := rewrites.frame
    rfl

theorem ActsOn.bus {h : HeadId} {s t : State} (a : ActsOn h s t) : t.bus = s.bus := by
  obtain ⟨f, rewrites⟩ := a.rewrites
  obtain ⟨r, d, q, l, rfl⟩ := rewrites.frame
  rfl

/-- What is in flight and what the heads on the bus do play no part. -/
theorem OnlyHead.of_flight {h : HeadId} {s t : State} {x : Option Transaction} {dv : List Device}
    (a : OnlyHead h { s with bus := { s.bus with inFlight := x }, devices := dv } t) : OnlyHead h s t :=
  ⟨a.1, congrArg (fun u => { u with bus := { u.bus with inFlight := s.bus.inFlight }, devices := s.devices }) a.2⟩

/-- The part with one head's record, the queue and the notices of an event. -/
def atHead (h : HeadId) (r : Head) (q : List Entry) (ns : List Notice) (s : State) : State :=
  { s with
    heads := { s.heads with records := store s.heads.records h r }, queue := q, link := offerAll ns s.link }

section AtHead
variable {h : HeadId} {r : Head} {q : List Entry} {ns : List Notice} {s : State}

@[simp] theorem headOf_atHead : headOf (atHead h r q ns s) h = r := look_store_same ..

@[simp] theorem atHead_atHead (r' : Head) (q' : List Entry) (ns' : List Notice) :
    atHead h r' q' ns' (atHead h r q ns s) = atHead h r' q' (ns ++ ns') s := by
  unfold atHead; simp only [store_store, offerAll_append]

theorem atHead_acts (keeps : KeepsOthers h s.queue q) : ActsOn h s (atHead h r q ns s) :=
  ⟨⟨fun _ => r, ⟨_, _, _, _, rfl⟩, rfl⟩, fun _ _ => rfl, keeps⟩

theorem refreshHead_acts (h : HeadId) (s : State) : ActsOn h s (refreshHead h s) := by
  refine ⟨⟨_, refreshHead_rewrites h s⟩, fun k n => desiredOf_refreshHead_ne s (Ne.symm n), ?_⟩
  rw [(refreshHead_refreshed h s).2]; split
  · exact .refl h s.queue
  · exact queueDisplay_keeps h _ _ s.queue

theorem dropDisplay_acts (h : HeadId) (s : State) : ActsOn h s (dropDisplay h s) :=
  ⟨⟨_, dropDisplay_rewrites h s⟩, fun _ n => desiredOf_setDesired_ne _ _ (Ne.symm n), withoutHead_keeps h s.queue⟩

theorem refreshIf_acts (x : Bool) (h : HeadId) (s : State) : ActsOn h s (refreshIf x h s) := by
  unfold refreshIf; split
  · exact refreshHead_acts h s
  · exact .refl h s

@[simp] theorem headOf_refreshHead : headOf (refreshHead h s) = headOf s := by
  obtain ⟨d, q, e⟩ := refreshHead_frame h s
  rw [e]; rfl

@[simp] theorem link_refreshHead : (refreshHead h s).link = s.link := by
  obtain ⟨d, q, e⟩ := refreshHead_frame h s
  rw [e]

/-- A recomputation after one update of a head reads as one from the part before it (R81, R90). -/
theorem refreshed_atHead : Refreshed h q s (refreshHead h (atHead h r q ns s)) :=
  refreshHead_refreshed h (atHead h r q ns s)

theorem headOf_dropDisplay_atHead : headOf (dropDisplay h (atHead h r q ns s)) h = r := look_store_same ..

theorem dark_atHead : Dark h s (dropDisplay h (atHead h r s.queue ns s)) := ⟨desiredOf_setDesired_same .., rfl⟩

end AtHead

/-! ## The operations as one update -/

/-- The HEAD notice of a head whose record becomes the one given (R132). -/
def movedNotice (s : State) (h : HeadId) (r : Head) (cause : HeadCause) : Notice :=
  .head (some h) (placementOf s h).serial (some (headOf s h).state) (some r.state) cause r.faultCount r.lastReject none

section Operations
variable {h : HeadId} {s : State}

theorem headMoved_eq {t : State} {r : Head} (own : headOf t h = r) (cause : HeadCause) :
    headMoved s t h cause = movedNotice s h r cause := by
  unfold headMoved movedNotice; rw [own]

theorem headNotice_atHead (r : Head) (q : List Entry) (ns : List Notice) (cause : HeadCause) :
    headNotice (atHead h r q ns s) h (headOf s h).state r.state cause = movedNotice s h r cause := by
  unfold headNotice movedNotice; rw [headOf_atHead]; rfl

theorem offer_atHead (n : Notice) (r : Head) (q : List Entry) (ns : List Notice) :
    offer n (atHead h r q ns s) = atHead h r q (ns ++ [n]) s := by
  unfold atHead; rw [offerAll_append]; rfl

theorem setHead_atHead (x r : Head) (q : List Entry) (ns : List Notice) :
    setHead h x (atHead h r q ns s) = atHead h x q ns s := by
  unfold setHead atHead; rw [store_store]

theorem setHead_eq (h : HeadId) (r : Head) (s : State) : setHead h r s = atHead h r s.queue [] s := rfl

theorem endTest_atHead (r : Head) (q : List Entry) (ns : List Notice) :
    endTest h (atHead h r q ns s) = atHead h { r with testPending := false } q (ns ++ testLost r h) s := by
  refine (endTest_eq h _).trans ?_
  rw [testNotices, headOf_atHead]
  exact atHead_atHead (h := h) (s := s) { r with testPending := false } q (testLost r h)

theorem enterLoading_atHead (r : Head) (q : List Entry) (ns : List Notice) :
    enterLoading h (atHead h r q ns s)
      = atHead h { r with state := .loading, loaded := [], testPending := false } q (ns ++ testLost r h) s := by
  unfold enterLoading
  rw [endTest_atHead]; dsimp only; rw [headOf_atHead, setHead_atHead]

theorem enterLoading_atHead_self :
    enterLoading h s
      = atHead h { headOf s h with state := .loading, loaded := [], testPending := false } s.queue (testLost (headOf s h) h)
          s := enterLoading_eq h s

theorem enterLoading_acts (h : HeadId) (s : State) : ActsOn h s (enterLoading h s) := by
  rw [enterLoading_atHead_self]; exact atHead_acts (.refl h s.queue)

/-- An ASSIGN is acknowledged (R122). -/
theorem assignAck_eq :
    assignAck h s
      = refreshHead h (atHead h
          { headOf s h with
            state := .loading, loaded := [], confirmed := none, generation := none, waitCount := 0, testPending := false }
          s.queue (testLost (headOf s h) h) s) := by
  unfold assignAck
  rw [enterLoading_atHead_self]; dsimp only; rw [headOf_atHead, setHead_atHead]

/-- An ASSIGN has failed (R118, R122). -/
theorem assignFailed_eq (c : FaultCause) :
    enterAbsent true h (noteFault h c s)
      = dropDisplay h (atHead h (absentRecord true (countFault c (headOf s h))) s.queue (testLost (headOf s h) h) s) := by
  unfold enterAbsent noteFault
  rw [setHead_eq h (countFault c (headOf s h)), endTest_atHead, headOf_atHead, setHead_atHead]; rfl

/-- The record that a failed command leaves in a state (R126, R127). -/
def failedTo (st : HeadState) (c : FaultCause) (r : Head) : Head :=
  { countFault c r with state := st, testPending := false }

/-- The notices of a failed command that takes a head to a state: the test's, then the head's (R131, R132, log 21). -/
def failedNotices (s : State) (h : HeadId) (st : HeadState) (c : FaultCause) : List Notice :=
  testLost (headOf s h) h ++ [movedNotice s h (failedTo st c (headOf s h)) (faultNotice c)]

/-- A head goes to RECOVERING (R126). -/
theorem headFault_eq (c : FaultCause) :
    headFault h c s
      = refreshHead h
          (atHead h (failedTo .recovering c (headOf s h)) s.queue (failedNotices s h .recovering c) s) := by
  unfold headFault failedNotices; dsimp only
  rw [setHead_eq, endTest_atHead, ← headNotice_atHead (s := s) (failedTo .recovering c (headOf s h)) s.queue
    (testLost (headOf s h) h), ← offer_atHead]
  rfl

/-- A RESYNC has failed (R127). -/
theorem resyncFault_eq (c : FaultCause) :
    resyncFault h c s
      = dropDisplay h (atHead h (failedTo .failed c (headOf s h)) s.queue (failedNotices s h .failed c) s) := by
  unfold resyncFault enterFailed noteFault failedNotices; dsimp only
  rw [setHead_eq h (countFault c (headOf s h)), endTest_atHead, headOf_atHead, setHead_atHead,
    ← headNotice_atHead (s := s) (failedTo .failed c (headOf s h)) s.queue (testLost (headOf s h) h), ← offer_atHead]
  rfl

/-- The status of an ACK is taken, with the display that the command carried (R93, R124). -/
theorem takeStatus_eq (c : BusCommand) (st : AckStatus) :
    takeStatus h st (confirmDisplay h (carriedDisplay c) s)
      = atHead h (acked c st (headOf s h)) (ackedQueue h c s) [] s := by
  unfold takeStatus acked ackedQueue
  cases carriedDisplay c with
  | none => rfl
  | some d =>
    show setHead h _ (atHead h _ _ [] s) = _
    rw [setHead_atHead, show headOf (confirmDisplay h (some d) s) h = { headOf s h with confirmed := some d } from
      look_store_same ..]
    rfl

/-- The notices of a test that an ACK ends (R131). -/
def testedNotices (h : HeadId) (c : BusCommand) (st : AckStatus) (r : Head) : List Notice :=
  if c = .test ∧ r.testPending = true then [.test h (some (testResult st r))] else []

theorem testDone_atHead (st : AckStatus) (r : Head) (q : List Entry) (ns : List Notice) :
    testDone h st (atHead h r q ns s)
      = atHead h { r with testPending := false } q (ns ++ testedNotices h .test st r) s := by
  unfold testDone testedNotices
  rw [headOf_atHead]
  by_cases pending : r.testPending = true
  · rw [if_pos pending, if_pos ⟨rfl, pending⟩, setHead_atHead, offer_atHead]
  · have same : ({ r with testPending := false } : Head) = r := by rw [← Bool.eq_false_of_not_eq_true pending]
    rw [if_neg pending, if_neg (fun h => pending h.2), same, List.append_nil]

/-- Where the command was a TEST, an ACK ends a pending test (R131). -/
theorem tested_atHead (c : BusCommand) (st : AckStatus) (r : Head) (q : List Entry) (ns : List Notice) :
    (if c = .test then testDone h st (atHead h r q ns s) else atHead h r q ns s)
      = atHead h { r with testPending := r.testPending && decide (c ≠ .test) } q (ns ++ testedNotices h c st r) s := by
  by_cases test : c = .test
  · subst test
    rw [if_pos rfl, testDone_atHead]; simp
  · rw [if_neg test, testedNotices, if_neg (fun h => test h.1)]; simp [test]

/-- An ACK to DISPLAY, POLL or TEST from a SERVING head that holds the present generation (R124, R131). -/
theorem servingAck_current {c : BusCommand} {st : AckStatus} (current : st.generation = some s.selector.generation) :
    servingAck h c st s
      = refreshIf ((headOf s h).faultMask != st.mask) h
          (atHead h
            { acked c st (headOf s h) with testPending := (headOf s h).testPending && decide (c ≠ .test) }
            (ackedQueue h c s) (testedNotices h c st (headOf s h)) s) := by
  unfold servingAck
  rw [takeStatus_eq]; dsimp only; rw [tested_atHead, current]
  rw [bne_self_eq_false, Bool.or_false, if_neg Bool.false_ne_true]
  rfl

/-- An ACK to DISPLAY, POLL or TEST from a SERVING head of another generation, which goes to LOADING (R124, R131). -/
theorem servingAck_stale {c : BusCommand} {st : AckStatus} (stale : st.generation ≠ some s.selector.generation) :
    servingAck h c st s
      = refreshHead h
          (atHead h { acked c st (headOf s h) with state := .loading, loaded := [], testPending := false }
            (ackedQueue h c s)
            (if c = .test then testedNotices h c st (headOf s h) else testLost (headOf s h) h) s) := by
  unfold servingAck
  rw [takeStatus_eq]; dsimp only; rw [tested_atHead, bne_iff_ne.mpr stale]
  simp only [if_true, Bool.or_true, refreshIf, enterLoading_atHead, List.nil_append]
  congr 2
  by_cases test : c = .test
  · subst test; simp [testedNotices, testLost, testResult, announcedArrows, acked]
  · simp [testedNotices, testLost, test, acked]

/-- An ACK taken as one to RESYNC, from a head of the present generation (R127). -/
theorem resyncAck_current {c : BusCommand} {st : AckStatus} (current : st.generation = some s.selector.generation) :
    resyncAck h (carriedDisplay c) st s
      = let r : Head := { acked c st (headOf s h) with state := .serving }
        refreshHead h (atHead h r (ackedQueue h c s) [movedNotice s h r .resynced] s) := by
  unfold resyncAck
  rw [takeStatus_eq]; dsimp only
  rw [if_pos current, headOf_atHead, setHead_atHead, ← headNotice_atHead, ← List.nil_append [headNotice _ _ _ _ _],
    ← offer_atHead]

/-- An ACK taken as one to RESYNC, from a head of another generation (R127). -/
theorem resyncAck_stale {c : BusCommand} {st : AckStatus} (stale : st.generation ≠ some s.selector.generation) :
    resyncAck h (carriedDisplay c) st s
      = refreshHead h
          (atHead h { acked c st (headOf s h) with state := .loading, loaded := [], testPending := false }
            (ackedQueue h c s) (testLost (headOf s h) h) s) := by
  unfold resyncAck
  rw [takeStatus_eq]; dsimp only
  rw [if_neg stale, enterLoading_atHead]; rfl

/-- The closing SCRIPT is acknowledged (R123). -/
theorem scriptAck_closing {g b : Byte} (current : g = s.selector.generation) (e : (headOf s h).state = .loading) :
    scriptAck h g 0 b s
      = let r : Head := { headOf s h with waitCount := 0, generation := some g, state := .serving }
        refreshHead h (atHead h r s.queue [movedNotice s h r .loaded] s) := by
  unfold scriptAck; dsimp only
  rw [if_neg (not_not.mpr current), if_pos rfl, setHead_eq, ← List.nil_append [movedNotice _ _ _ _], ← offer_atHead,
    ← headNotice_atHead (q := s.queue) (ns := []), e]

end Operations

end Sys2Proof.Machine
end

section
/-! The outcome of each addressed command for one head, as the rows that the claims about outcomes are made of (R122 to
R129, Table 8.4). -/

namespace Sys2Proof.Machine

/-! ## Failures and WAITs (R125, R126) -/

/-- A failed command is taken as a fault, which counts as the rows count it. -/
theorem takenOf_failed {r : Head} {w : WindowClass} {cause : HeadCause} {x : Option RejectReason}
    (failed : failureOf r w = some (cause, x)) :
    ∃ c, takenOf r w = .fault c ∧ faultNotice c = cause ∧ countFault c = faulted x := by
  unfold failureOf at failed
  split at failed
  · cases failed; exact ⟨.reject _, rfl, rfl, rfl⟩
  · cases failed; exact ⟨.noReply, rfl, rfl, rfl⟩
  · cases failed; exact ⟨.noReply, rfl, rfl, rfl⟩
  · split at failed
    · next full =>
      cases failed
      exact ⟨.waitLimit, if_pos (by rw [full]; decide), rfl, rfl⟩
    · cases failed
  · cases failed

theorem takenOf_waits {r : Head} (short : r.waitCount < 15) : takenOf r (.valid .wait) = .wait :=
  if_neg (by unfold Config.waitLimit; omega)

section Rows
variable {h : HeadId} {s : State} {w : WindowClass}

theorem waited_waitUp : Waited h s (waitUp h s) ∧ (waitUp h s).queue = s.queue :=
  ⟨⟨headOf_setHead_same .., rfl, rfl⟩, rfl⟩

theorem displayWaited_heldByWait (c : BusCommand) (observed : Bool) :
    DisplayWaited h c observed s (heldByWait h c observed (waitUp h s)) := by
  obtain ⟨waited, -⟩ := waited_waitUp (h := h) (s := s)
  cases c with
  | display => cases observed <;> exact ⟨waited, rfl⟩
  | _ => exact ⟨waited, rfl⟩

theorem faultCounted_noteFault {c : FaultCause} {x : Option RejectReason} (counts : countFault c = faulted x) :
    FaultCounted h x s (noteFault h c s) := by
  refine ⟨?_, rfl, rfl, rfl⟩
  rw [← counts]; exact headOf_setHead_same ..

/-- What one update with a recomputation leaves (R81). -/
theorem refreshHead_atHead (h : HeadId) (r : Head) (q : List Entry) (ns : List Notice) (s : State) :
    headOf (refreshHead h (atHead h r q ns s)) h = r
      ∧ (refreshHead h (atHead h r q ns s)).link = offerAll ns s.link
      ∧ Refreshed h q s (refreshHead h (atHead h r q ns s)) :=
  ⟨by rw [headOf_refreshHead, headOf_atHead], by rw [link_refreshHead]; rfl, refreshed_atHead⟩

/-- What one update leaves where its display is recomputed if a condition holds (R80). -/
theorem refreshIf_atHead (x : Bool) (h : HeadId) (r : Head) (q : List Entry) (ns : List Notice) (s : State) :
    headOf (refreshIf x h (atHead h r q ns s)) h = r
      ∧ (refreshIf x h (atHead h r q ns s)).link = offerAll ns s.link
      ∧ (x = true → Refreshed h q s (refreshIf x h (atHead h r q ns s)))
      ∧ (x = false → desiredOf (refreshIf x h (atHead h r q ns s)) h = desiredOf s h
        ∧ (refreshIf x h (atHead h r q ns s)).queue = q) := by
  cases x with
  | true =>
    obtain ⟨record, link, refreshed⟩ := refreshHead_atHead h r q ns s
    exact ⟨record, link, fun _ => refreshed, nofun⟩
  | false => exact ⟨headOf_atHead, rfl, nofun, fun _ => ⟨rfl, rfl⟩⟩

theorem recovers_headFault {c : FaultCause} {x : Option RejectReason} (counts : countFault c = faulted x) :
    Recovers h s (headFault h c s) (faultNotice c) x := by
  obtain ⟨record, link, refreshed⟩ := refreshHead_atHead h (failedTo .recovering c (headOf s h)) s.queue
    (failedNotices s h .recovering c) s
  rw [headFault_eq]
  refine ⟨?_, ?_, refreshed⟩
  · rw [record, failedTo, counts]
  · rw [link, headMoved_eq record]; rfl

/-! ## ASSIGN (R122) -/

theorem assignAcked_assignAck : AssignAcked h s (assignAck h s) := by
  rw [assignAck_eq]; exact refreshHead_atHead ..

theorem assignRow_assignOutcome : AssignRow h w s (assignOutcome h (takenOf (headOf s h) w) s) := by
  refine ⟨?_, ?_, fun cause x failed => ?_⟩
  · rintro rfl; exact assignAcked_assignAck
  · rintro rfl short
    rw [takenOf_waits short]; exact waited_waitUp
  · obtain ⟨c, taken, -, counts⟩ := takenOf_failed failed
    rw [taken, ← counts, show assignOutcome h (.fault c) s = enterAbsent true h (noteFault h c s) from rfl,
      assignFailed_eq]
    exact ⟨headOf_dropDisplay_atHead, rfl, dark_atHead⟩

/-- An observed ASSIGN on a record that is past JOINING (Table 8.4); its window holds no status. -/
theorem observedRow_assign {serial : Serial} (bare : ∀ st, w ≠ .valid (.ackStatus st)) :
    ObservedRow h (.assign serial) w s (observedAssign h (takenOf (headOf s h) w) s) := by
  refine ⟨?_, fun other => ?_⟩
  · rintro rfl; exact assignAcked_assignAck
  · have left : observedAssign h (takenOf (headOf s h) w) s = s := by
      unfold takenOf; split
      · exact absurd rfl other
      · next st => exact absurd rfl (bare st)
      · split <;> rfl
      all_goals rfl
    rw [left]; exact ⟨rfl, rfl, rfl, rfl⟩

/-! ## SCRIPT (R123) -/

theorem mem_addBlock {a b : Nat × Nat} {l : List (Nat × Nat)} : a ∈ addBlock b l ↔ a ∈ l ∨ a = b := by
  unfold addBlock; split
  · next old => exact ⟨.inl, fun m => m.elim id fun same => same ▸ old⟩
  · simp

theorem scriptRow_scriptOutcome {g script b : Byte} (e : (headOf s h).state = .loading) :
    ScriptRow h g script b w s (scriptOutcome h g script b (takenOf (headOf s h) w) s) := by
  refine ⟨?_, ?_, fun cause x failed => ?_⟩
  · rintro rfl
    rw [show scriptOutcome h g script b (takenOf (headOf s h) (.valid .ack)) s = scriptAck h g script b s from rfl]
    refine ⟨fun stale => ?_, ?_, fun current block => ?_⟩
    · unfold scriptAck; rw [if_pos stale]
      exact ⟨headOf_setHead_same .., rfl, rfl, rfl⟩
    · rintro current rfl
      rw [scriptAck_closing current e]
      obtain ⟨record, link, refreshed⟩ := refreshHead_atHead h
        { headOf s h with waitCount := 0, generation := some g, state := .serving } s.queue
        [movedNotice s h { headOf s h with waitCount := 0, generation := some g, state := .serving } .loaded] s
      exact ⟨record, by rw [link, headMoved_eq record]; rfl, refreshed⟩
    · unfold scriptAck; rw [if_neg (not_not.mpr current), if_neg block, headOf_setHead_same]
      exact ⟨rfl, fun _ => mem_addBlock, rfl, rfl, rfl⟩
  · rintro rfl short
    rw [takenOf_waits short]; exact waited_waitUp
  · obtain ⟨c, taken, rfl, counts⟩ := takenOf_failed failed
    rw [taken]; exact recovers_headFault counts

/-- An observed SCRIPT on a record that is past LOADING (Table 8.4). -/
theorem observedRow_script {g script b : Byte} {steps : List Half} :
    ObservedRow h (.script g script b steps) w s (observedScript h g script b (takenOf (headOf s h) w) s) := by
  refine ⟨?_, ?_, fun cause x failed => ?_⟩
  · rintro rfl
    obtain ⟨record, link, refreshed⟩ := refreshHead_atHead h
      { headOf s h with state := .loading, loaded := [], testPending := false } s.queue (testLost (headOf s h) h) s
    rw [← enterLoading_atHead_self] at record link refreshed
    have acts := (enterLoading_acts h s).trans (refreshHead_acts ..)
    exact ⟨_, record, link, refreshed, acts.onlyHead, scriptRow_scriptOutcome (w := .valid .ack) (by rw [record])⟩
  · rintro rfl short
    rw [takenOf_waits short]; exact waited_waitUp
  · obtain ⟨c, taken, rfl, counts⟩ := takenOf_failed failed
    rw [taken, show observedScript h g script b (.fault c) s
      = if (headOf s h).state = .serving then headFault h c s else noteFault h c s from rfl]
    split
    · exact recovers_headFault counts
    · exact faultCounted_noteFault counts

/-! ## DISPLAY, POLL and TEST (R124, R129) -/

theorem servingRow_servingOutcome {c : BusCommand} {observed : Bool} :
    ServingRow h c observed w s (servingOutcome h c observed (takenOf (headOf s h) w) s) := by
  refine ⟨?_, ?_, fun cause x failed => ?_⟩
  · rintro st rfl
    rw [show servingOutcome h c observed (takenOf (headOf s h) (.valid (.ackStatus st))) s = servingAck h c st s from rfl]
    by_cases current : st.generation = some s.selector.generation
    · obtain ⟨record, link, changed, same⟩ := refreshIf_atHead ((headOf s h).faultMask != st.mask) h
        { acked c st (headOf s h) with testPending := (headOf s h).testPending && decide (c ≠ .test) } (ackedQueue h c s)
        (testedNotices h c st (headOf s h)) s
      rw [servingAck_current current]
      refine ⟨fun _ => ⟨record, link⟩, fun stale => absurd current stale, fun new => changed ?_, fun _ mask => same ?_⟩
      · exact bne_iff_ne.mpr (new.resolve_left (not_not.mpr current))
      · rw [mask]; exact bne_self_eq_false' _
    · obtain ⟨record, link, refreshed⟩ := refreshHead_atHead h
        { acked c st (headOf s h) with state := .loading, loaded := [], testPending := false } (ackedQueue h c s)
        (if c = .test then testedNotices h c st (headOf s h) else testLost (headOf s h) h) s
      rw [servingAck_stale current]
      exact ⟨fun fresh => absurd current fresh, fun _ => ⟨record, link⟩, fun _ => refreshed,
        fun fresh => absurd current fresh⟩
  · rintro rfl short
    rw [takenOf_waits short]; exact displayWaited_heldByWait c observed
  · obtain ⟨cause, taken, rfl, counts⟩ := takenOf_failed failed
    rw [taken]; exact recovers_headFault counts

theorem loadingRow_loadingOutcome {c : BusCommand} {observed : Bool} :
    LoadingRow h c observed w s (loadingOutcome h c observed (takenOf (headOf s h) w) s) := by
  refine ⟨?_, ?_, fun cause x failed => ?_⟩
  · rintro st rfl
    obtain ⟨record, link, changed, same⟩ := refreshIf_atHead ((headOf s h).faultMask != st.mask) h
      (acked c st (headOf s h)) (ackedQueue h c s) [] s
    rw [← takeStatus_eq] at record link changed same
    refine ⟨record, link, fun new => changed (bne_iff_ne.mpr new), fun mask => same ?_⟩
    rw [mask]; exact bne_self_eq_false' _
  · rintro rfl short
    rw [takenOf_waits short]; exact displayWaited_heldByWait c observed
  · obtain ⟨cause, taken, rfl, counts⟩ := takenOf_failed failed
    rw [taken]; exact recovers_headFault counts

/-! ## RESYNC (R127) -/

theorem resyncAcked_resyncAck {c : BusCommand} {st : AckStatus} :
    ResyncAcked h c st s (resyncAck h (carriedDisplay c) st s) := by
  unfold ResyncAcked
  split
  · next current =>
    obtain ⟨record, link, refreshed⟩ := refreshHead_atHead h { acked c st (headOf s h) with state := .serving }
      (ackedQueue h c s) [movedNotice s h { acked c st (headOf s h) with state := .serving } .resynced] s
    rw [resyncAck_current current]
    exact ⟨⟨record, by rw [link, headMoved_eq record]; rfl⟩, refreshed⟩
  · next stale =>
    obtain ⟨record, link, refreshed⟩ := refreshHead_atHead h
      { acked c st (headOf s h) with state := .loading, loaded := [], testPending := false } (ackedQueue h c s)
      (testLost (headOf s h) h) s
    rw [resyncAck_stale stale]
    exact ⟨⟨record, link⟩, refreshed⟩

theorem resyncRow_resyncOutcome {serial : Serial} {a g : Byte} {d : Display} :
    ResyncRow h (.resync serial a g d) w s (resyncOutcome h d (takenOf (headOf s h) w) s) := by
  refine ⟨?_, ?_, fun cause x failed => ?_⟩
  · rintro st rfl; exact resyncAcked_resyncAck (c := .resync serial a g d)
  · rintro rfl short
    rw [takenOf_waits short]; exact waited_waitUp
  · obtain ⟨c, taken, rfl, counts⟩ := takenOf_failed failed
    rw [taken, show resyncOutcome h d (.fault c) s = resyncFault h c s from rfl, resyncFault_eq]
    refine ⟨?_, ?_, dark_atHead⟩
    · rw [headOf_dropDisplay_atHead, failedTo, counts]
    · rw [headMoved_eq headOf_dropDisplay_atHead]; rfl

/-- An observed DISPLAY, POLL or TEST on a RECOVERING record (Table 8.4). -/
theorem observedRow_recovering {c : BusCommand} (polls : c = .poll ∨ c = .test ∨ ∃ d, c = .display d) :
    ObservedRow h c w s (observedRecovering h c (takenOf (headOf s h) w) s) := by
  have row : (∀ st, w = .valid (.ackStatus st) → ResyncAcked h c st s (observedRecovering h c (takenOf (headOf s h) w) s))
      ∧ (w = .valid .wait → (headOf s h).waitCount < 15 →
        Waited h s (observedRecovering h c (takenOf (headOf s h) w) s)
          ∧ (observedRecovering h c (takenOf (headOf s h) w) s).queue = s.queue)
      ∧ ∀ cause x, failureOf (headOf s h) w = some (cause, x) →
        FaultCounted h x s (observedRecovering h c (takenOf (headOf s h) w) s) := by
    refine ⟨?_, ?_, fun cause x failed => ?_⟩
    · rintro st rfl; exact resyncAcked_resyncAck
    · rintro rfl short
      rw [takenOf_waits short]; exact waited_waitUp
    · obtain ⟨cause, taken, -, counts⟩ := takenOf_failed failed
      rw [taken]; exact faultCounted_noteFault counts
  obtain rfl | rfl | ⟨d, rfl⟩ := polls <;> exact row

end Rows

/-! ## Outcomes act on their head alone -/

section Acts
variable (h : HeadId) (s : State)

theorem setHead_acts (r : Head) : ActsOn h s (setHead h r s) :=
  atHead_acts (r := r) (ns := []) (.refl h s.queue)

theorem offer_acts (n : Notice) : ActsOn h s (offer n s) := ⟨⟨_, offer_rewrites h n s⟩, fun _ _ => rfl, .refl h _⟩

theorem waitUp_acts : ActsOn h s (waitUp h s) := setHead_acts h s _

theorem noteFault_acts (c : FaultCause) : ActsOn h s (noteFault h c s) := setHead_acts h s _

theorem headFault_acts (c : FaultCause) : ActsOn h s (headFault h c s) := by
  rw [headFault_eq]; exact (atHead_acts (.refl h s.queue)).trans (refreshHead_acts ..)

theorem assignAck_acts : ActsOn h s (assignAck h s) := by
  rw [assignAck_eq]; exact (atHead_acts (.refl h s.queue)).trans (refreshHead_acts ..)

theorem scriptAck_acts (g script b : Byte) : ActsOn h s (scriptAck h g script b s) := by
  unfold scriptAck; dsimp only; split
  · exact setHead_acts h s _
  · split
    · exact (setHead_acts h s _).trans ((offer_acts ..).trans (refreshHead_acts ..))
    · exact setHead_acts h s _

theorem servingAck_acts (c : BusCommand) (st : AckStatus) : ActsOn h s (servingAck h c st s) := by
  by_cases current : st.generation = some s.selector.generation
  · rw [servingAck_current current]; exact (atHead_acts (ackedQueue_keeps h c s)).trans (refreshIf_acts ..)
  · rw [servingAck_stale current]; exact (atHead_acts (ackedQueue_keeps h c s)).trans (refreshHead_acts ..)

theorem resyncAck_acts (c : BusCommand) (st : AckStatus) : ActsOn h s (resyncAck h (carriedDisplay c) st s) := by
  by_cases current : st.generation = some s.selector.generation
  · rw [resyncAck_current current]; exact (atHead_acts (ackedQueue_keeps h c s)).trans (refreshHead_acts ..)
  · rw [resyncAck_stale current]; exact (atHead_acts (ackedQueue_keeps h c s)).trans (refreshHead_acts ..)

theorem heldByWait_acts (c : BusCommand) (observed : Bool) : ActsOn h s (heldByWait h c observed s) := by
  unfold heldByWait; split
  · split
    · exact .refl h s
    · exact ⟨⟨_, .rest ⟨_, _, _, _, rfl⟩ rfl⟩, fun _ _ => rfl, holdEntry_keeps h s.queue⟩
  · exact .refl h s

theorem assignOutcome_acts (t : Taken) : ActsOn h s (assignOutcome h t s) := by
  cases t with
  | ack => exact assignAck_acts h s
  | wait => exact waitUp_acts h s
  | fault c =>
    show ActsOn h s (enterAbsent true h (noteFault h c s))
    rw [assignFailed_eq]; exact (atHead_acts (.refl h s.queue)).trans (dropDisplay_acts ..)

theorem observedAssign_acts (t : Taken) : ActsOn h s (observedAssign h t s) := by
  cases t with
  | ack => exact assignAck_acts h s
  | wait => exact .refl h s
  | fault => exact .refl h s

theorem scriptOutcome_acts (g script b : Byte) (t : Taken) : ActsOn h s (scriptOutcome h g script b t s) := by
  cases t with
  | ack => exact scriptAck_acts h s g script b
  | wait => exact waitUp_acts h s
  | fault c => exact headFault_acts h s c

theorem observedScript_acts (g script b : Byte) (t : Taken) : ActsOn h s (observedScript h g script b t s) := by
  cases t with
  | ack => exact (enterLoading_acts h s).trans ((refreshHead_acts ..).trans (scriptAck_acts ..))
  | wait => exact waitUp_acts h s
  | fault c =>
    show ActsOn h s (if (headOf s h).state = .serving then headFault h c s else noteFault h c s)
    split
    · exact headFault_acts h s c
    · exact noteFault_acts h s c

theorem servingOutcome_acts (c : BusCommand) (observed : Bool) (t : Taken) :
    ActsOn h s (servingOutcome h c observed t s) := by
  cases t with
  | ack st => exact servingAck_acts h s c st
  | wait => exact (waitUp_acts h s).trans (heldByWait_acts ..)
  | fault x => exact headFault_acts h s x

theorem loadingOutcome_acts (c : BusCommand) (observed : Bool) (t : Taken) :
    ActsOn h s (loadingOutcome h c observed t s) := by
  cases t with
  | ack st =>
    show ActsOn h s (refreshIf _ h (takeStatus h st (confirmDisplay h (carriedDisplay c) s)))
    rw [takeStatus_eq]; exact (atHead_acts (ackedQueue_keeps h c s)).trans (refreshIf_acts ..)
  | wait => exact (waitUp_acts h s).trans (heldByWait_acts ..)
  | fault x => exact headFault_acts h s x

theorem observedRecovering_acts (c : BusCommand) (t : Taken) : ActsOn h s (observedRecovering h c t s) := by
  cases t with
  | ack st => exact resyncAck_acts h s c st
  | wait => exact waitUp_acts h s
  | fault x => exact noteFault_acts h s x

theorem resyncOutcome_acts (d : Display) (t : Taken) : ActsOn h s (resyncOutcome h d t s) := by
  cases t with
  | ack st => exact resyncAck_acts h s (.display d) st
  | wait => exact waitUp_acts h s
  | fault x =>
    show ActsOn h s (resyncFault h x s)
    rw [resyncFault_eq]; exact (atHead_acts (.refl h s.queue)).trans (dropDisplay_acts ..)

/-- The outcome of a command of the part's own slot acts on its head alone (R113). -/
theorem ownOutcome_acts (c : BusCommand) (w : WindowClass) : ActsOn h s (ownOutcome h c w s) := by
  unfold ownOutcome
  generalize (headOf s h).state = st
  cases c <;> cases st <;> dsimp only
  case assign.joining => exact assignOutcome_acts ..
  case script.loading => exact scriptOutcome_acts ..
  case display.serving | poll.serving | test.serving => exact servingOutcome_acts ..
  case display.loading | poll.loading | test.loading => exact loadingOutcome_acts ..
  case resync.recovering => exact resyncOutcome_acts ..
  all_goals exact .refl h s

/-- The outcome of an observed command acts on its head alone (Table 8.4). -/
theorem observedOutcome_acts (c : BusCommand) (w : WindowClass) : ActsOn h s (observedOutcome h c w s) := by
  unfold observedOutcome
  generalize (headOf s h).state = st
  cases c <;> cases st <;> dsimp only
  case assign.joining => exact assignOutcome_acts ..
  case assign.loading | assign.serving | assign.recovering => exact observedAssign_acts ..
  case script.loading => exact scriptOutcome_acts ..
  case script.serving | script.recovering => exact observedScript_acts ..
  case display.serving | poll.serving | test.serving => exact servingOutcome_acts ..
  case display.loading | poll.loading | test.loading => exact loadingOutcome_acts ..
  case display.recovering | poll.recovering | test.recovering => exact observedRecovering_acts ..
  case resync.recovering | resync.loading | resync.serving => exact resyncOutcome_acts ..
  all_goals exact .refl h s

end Acts

end Sys2Proof.Machine
end

section
/-! The end of an addressed command of the part's own slot (R101, R113): what is in flight, whom it concerns, and the
rows of its outcome. -/

namespace Sys2Proof.Machine

/-! ## Commands to heads -/

theorem headsActed_frame (a : Byte) (c : BusCommand) (w : WindowClass) (s : State) :
    ∃ dv, headsActed a c w s = { s with devices := dv } := by
  unfold headsActed; split <;> exact ⟨_, rfl⟩

/-- The part with its transaction over, and its heads' devices as given. -/
def landed (dv : List Device) (s : State) : State := { s with bus := { s.bus with inFlight := none }, devices := dv }

theorem handOutcome_addressed {t : Transaction} {h : HeadId} (addressed : 0x10 ≤ commandKind t.command)
    (head : t.head = some h) (w : WindowClass) (s : State) :
    handOutcome t w s = ownOutcome h t.command w (headsActed t.address t.command w s) := by
  unfold handOutcome
  cases command : t.command <;> rw [command] at addressed
  case beat | releaseAll | invite | query => exact absurd addressed (by simp [commandKind])
  all_goals rw [head]

/-- The outcome of an addressed command goes to the head manager, and of the rest the heads on the bus alone have moved. -/
theorem completeTransaction_addressed {s : State} {h : HeadId} {c : BusCommand} {address : Byte}
    (awaits : Awaits s h c address) (addressed : 0x10 ≤ commandKind c) (w : Window) :
    ∃ dv, completeTransaction w s = ownOutcome h c (classify address c w) (landed dv s) := by
  obtain ⟨tr, flight, rfl, head, rfl⟩ := awaits
  obtain ⟨dv, acted⟩ := headsActed_frame tr.address tr.command (classify tr.address tr.command w)
    { s with bus := { s.bus with inFlight := none } }
  refine ⟨dv, ?_⟩
  unfold completeTransaction
  rw [flight]; dsimp only
  rw [handOutcome_addressed addressed head, acted]; rfl

/-- The end of an addressed command, with the row that its outcome meets. -/
theorem complete_row {s : State} {h : HeadId} {c : BusCommand} {address : Byte} {w : Window} {P : State → Prop}
    (awaits : Awaits s h c address) (addressed : 0x10 ≤ commandKind c)
    (row : ∀ dv, P (ownOutcome h c (classify address c w) (landed dv s))) :
    ∃ t, exec (.transactionComplete w) s = .next t ∧ OnlyHead h s t ∧ t.bus.inFlight = none ∧ P t := by
  obtain ⟨dv, run⟩ := completeTransaction_addressed awaits addressed w
  have acts := ownOutcome_acts h (landed dv s) c (classify address c w)
  refine ⟨_, exec_transactionComplete w s, ?_⟩
  rw [run]
  exact ⟨acts.onlyHead.of_flight, congrArg Bus.inFlight acts.bus, row dv⟩

/-! ## Outcomes by the state of the head (R113, R129) -/

section Outcomes
variable {h : HeadId} {s : State} {c : BusCommand} {w : WindowClass}

theorem ownOutcome_assign (serial : Serial) (e : (headOf s h).state = .joining) :
    ownOutcome h (.assign serial) w s = assignOutcome h (takenOf (headOf s h) w) s := by
  unfold ownOutcome; rw [e]

theorem ownOutcome_script (g script b : Byte) (steps : List Half) (e : (headOf s h).state = .loading) :
    ownOutcome h (.script g script b steps) w s = scriptOutcome h g script b (takenOf (headOf s h) w) s := by
  unfold ownOutcome; rw [e]

theorem ownOutcome_serving (polls : c = .poll ∨ c = .test ∨ ∃ d, c = .display d) (e : (headOf s h).state = .serving) :
    ownOutcome h c w s = servingOutcome h c false (takenOf (headOf s h) w) s := by
  unfold ownOutcome; rw [e]
  obtain rfl | rfl | ⟨d, rfl⟩ := polls <;> rfl

theorem ownOutcome_loading (polls : c = .poll ∨ c = .test ∨ ∃ d, c = .display d) (e : (headOf s h).state = .loading) :
    ownOutcome h c w s = loadingOutcome h c false (takenOf (headOf s h) w) s := by
  unfold ownOutcome; rw [e]
  obtain rfl | rfl | ⟨d, rfl⟩ := polls <;> rfl

theorem ownOutcome_resync (serial : Serial) (a g : Byte) (d : Display) (e : (headOf s h).state = .recovering) :
    ownOutcome h (.resync serial a g d) w s = resyncOutcome h d (takenOf (headOf s h) w) s := by
  unfold ownOutcome; rw [e]

/-- A state that the rules do not pair with the command (log 25). -/
def unpaired (kind : Byte) : HeadState → Prop
  | .absent => True
  | .failed => True
  | .joining => kind ≠ 0x10
  | .recovering => kind ≠ 0x13
  | .serving => kind = 0x10 ∨ kind = 0x11 ∨ kind = 0x13
  | .loading => kind = 0x10 ∨ kind = 0x13

/-- An outcome that finds its head in such a state is disregarded. -/
theorem ownOutcome_unpaired (apart : unpaired (commandKind c) (headOf s h).state) : ownOutcome h c w s = s := by
  unfold ownOutcome
  generalize (headOf s h).state = st at apart ⊢
  cases c <;> cases st
  case assign.joining | script.loading | display.serving | display.loading | poll.serving | poll.loading | test.serving
    | test.loading | resync.recovering => exact absurd apart (by simp [unpaired, commandKind])
  all_goals rfl

end Outcomes

end Sys2Proof.Machine

namespace Sys2Proof.Proofs
open Sys2Proof Sys2Proof.Machine

/-- Settles O46: every outcome is one update of its head, whose rows stand above by command and state. -/
theorem addressedOutcomes : Obligations.AddressedOutcomes := by
  refine ⟨fun s h serial address w awaits e => ?_, fun s h g script b steps address w awaits e => ?_,
    fun s h c address w awaits polls e => ?_, fun s h serial a g d address w awaits e => ?_, fun s w idle => ?_,
    fun s h c address w awaits addressed apart => ?_⟩
  · refine complete_row awaits (by simp [commandKind]) fun dv => ?_
    rw [ownOutcome_assign serial (s := landed dv s) e]
    exact assignRow_assignOutcome (s := landed dv s)
  · refine complete_row awaits (by simp [commandKind]) fun dv => ?_
    rw [ownOutcome_script g script b steps (s := landed dv s) e]
    exact scriptRow_scriptOutcome (s := landed dv s) e
  · have addressed : 0x10 ≤ commandKind c := by obtain rfl | rfl | ⟨d, rfl⟩ := polls <;> simp [commandKind]
    refine complete_row awaits addressed fun dv => ⟨fun serving => ?_, fun loading => ?_⟩
    · rw [ownOutcome_serving polls (s := landed dv s) serving]
      exact servingRow_servingOutcome (s := landed dv s)
    · rw [ownOutcome_loading polls (s := landed dv s) loading]
      exact loadingRow_loadingOutcome (s := landed dv s)
  · refine complete_row awaits (by simp [commandKind]) fun dv => ?_
    rw [ownOutcome_resync serial a g d (s := landed dv s) e]
    exact resyncRow_resyncOutcome (s := landed dv s)
  · rw [exec_transactionComplete, completeTransaction, idle]
  · have off : unpaired (commandKind c) (headOf s h).state := by
      rcases apart with e | e | ⟨e, k⟩ | ⟨e, k⟩ | ⟨e, k⟩ | ⟨e, k⟩ <;> rw [e]
      · trivial
      · trivial
      all_goals exact k
    obtain ⟨dv, run⟩ := completeTransaction_addressed awaits addressed w
    refine ⟨_, exec_transactionComplete w s, ?_⟩
    rw [run, ownOutcome_unpaired (s := landed dv s) off]; rfl

end Sys2Proof.Proofs
end

section
/-! Command frames are read back as the commands they carry (R173, R174, Table 11.5). -/

namespace Sys2Proof.Machine

theorem natByte_toNat {n : Nat} (h : n < 256) : (natByte n).toNat = n := by
  unfold natByte; rw [BitVec.toNat_ofNat]; omega

theorem serialOf_serialBytes (x : Serial) :
    serialOf (x.extractLsb' 24 8) (x.extractLsb' 16 8) (x.extractLsb' 8 8) (x.extractLsb' 0 8) = x := by
  unfold serialOf
  iterate 3 rw [BitVec.extractLsb'_append_extractLsb'_eq_extractLsb' (by decide)]
  simp

theorem halvesOf_halfBytes (steps : List Half) : halvesOf (steps.flatMap halfBytes) = steps := by
  induction steps with
  | nil => rfl
  | cons w steps ih =>
    rw [List.flatMap_cons]
    show halfOf (hiByte w) (loByte w) :: halvesOf (steps.flatMap halfBytes) = _
    rw [halfOf_bytes, ih]

theorem length_halfBytes (steps : List Half) : (steps.flatMap halfBytes).length = 2 * steps.length := by
  induction steps with
  | nil => rfl
  | cons w steps ih =>
    rw [List.flatMap_cons, List.length_append, ih, List.length_cons]
    show 2 + _ = _
    omega

theorem displayOf_displayBytes (d : Display) :
    displayOf (displayKindCode d.kind) (optionalIndexCode d.arrow) (natByte d.script.val) (natByte d.phase.val)
      = some d := by
  have kind : displayKindOf (displayKindCode d.kind) = some d.kind := by cases d.kind <;> rfl
  have arrow : arrowField (optionalIndexCode d.arrow) = some d.arrow := by
    cases d.arrow with
    | none => rfl
    | some k => revert k; decide
  have script : indexOf 13 (natByte d.script.val).toNat = some d.script := by rw [natByte_toNat (by omega), indexOf_val]
  have phase : indexOf 64 (natByte d.phase.val).toNat = some d.phase := by rw [natByte_toNat (by omega), indexOf_val]
  unfold displayOf
  rw [kind, arrow, script, phase]

/-- A frame is read back as the command it carries, a SCRIPT of more than 12 steps aside (R110, R173). -/
theorem commandOf_commandFrame (a : Byte) {c : BusCommand}
    (short : ∀ g n b steps, c = .script g n b steps → steps.length ≤ 12) : commandOf (commandFrame a c) = some c := by
  cases c with
  | beat | releaseAll | test | poll => rfl
  | invite x => cases x <;> rfl
  | query d m b => exact congrArg (fun d => some (BusCommand.query d m b)) (halfOf_bytes d)
  | assign serial => exact congrArg (fun x => some (BusCommand.assign x)) (serialOf_serialBytes serial)
  | script g n b steps =>
    have few := short g n b steps rfl
    have count : (natByte steps.length).toNat = steps.length := natByte_toNat (by omega)
    show (if (natByte steps.length).toNat ≤ Config.blockSteps ∧ _ then some (BusCommand.script g n b _) else none) = _
    rw [count, if_pos ⟨few, length_halfBytes steps⟩, halvesOf_halfBytes]
  | display d => exact congrArg (Option.map BusCommand.display) (displayOf_displayBytes d)
  | resync serial addr g d =>
    exact (congrArg (Option.map _) (displayOf_displayBytes d)).trans
      (congrArg (fun x => some (BusCommand.resync x addr g d)) (serialOf_serialBytes serial))

/-- A frame with a SCRIPT of more than 12 steps carries no command (R110, R173). -/
theorem commandOf_longScript (a g n b : Byte) {steps : List Half} (long : 13 ≤ steps.length) :
    commandOf (commandFrame a (.script g n b steps)) = none := by
  show (if (natByte steps.length).toNat ≤ Config.blockSteps ∧ (steps.flatMap halfBytes).length = _ then _ else none) = none
  rw [length_halfBytes]
  refine if_neg fun ⟨few, same⟩ => ?_
  unfold Config.blockSteps at few
  omega

theorem isPartnerFrame_commandFrame (a : Byte) (c : BusCommand) : isPartnerFrame (commandFrame a c) = true := by
  have kind : isCommandKind (commandKind c) = true := by cases c <;> rfl
  have crc : crcOk (commandFrame a c) = true := beq_self_eq_true' _
  unfold isPartnerFrame
  rw [crc, Bool.and_true]; exact kind

theorem headOfAddress_headAddress (h : HeadId) : headOfAddress (headAddress h) = some h := by
  have value : (headAddress h).toNat = h.val + 1 := natByte_toNat (by omega)
  unfold headOfAddress
  rw [if_neg (fun zero => by rw [zero] at value; simp at value), value, Nat.add_sub_cancel, indexOf_val]

end Sys2Proof.Machine
end

section
/-! An observed addressed transaction: when it is taken for the observer's own record, and as which row of Table 8.4 (R137,
R143 to R145). -/

namespace Sys2Proof.Machine

/-! ## What the observer makes of a frame -/

/-- A partner frame at an observer, with the slot that its frame timing gives (R137, R143). -/
theorem observePartner_eq (s : State) :
    observePartner s = { partnerFrame s with bus := { s.bus with frame := timingNow s } } := by
  obtain ⟨p, l, e⟩ := partnerFrame_moves s
  unfold observePartner; rw [e]; rfl

theorem frame_observePartner (s : State) : (observePartner s).bus.frame = timingNow s := by rw [observePartner_eq]

theorem devices_observePartner (s : State) : (observePartner s).devices = s.devices := by
  obtain ⟨p, l, e⟩ := observePartner_frame s
  rw [e]; rfl

theorem placementOf_observePartner (s : State) : placementOf (observePartner s) = placementOf s := by
  obtain ⟨p, l, e⟩ := observePartner_frame s
  rw [e]; rfl

theorem serialMatches_observePartner (s : State) (h : HeadId) (c : BusCommand) :
    serialMatches (observePartner s) h c = serialMatches s h c := by
  unfold serialMatches; rw [placementOf_observePartner]

theorem headOf_partnerFrame (s : State) : headOf (partnerFrame s) = headOf s := by
  obtain ⟨p, l, e⟩ := partnerFrame_moves s
  rw [e]; rfl

theorem observes_iff (s : State) :
    observes s = true ↔ s.pair.state = .reserve ∨ s.pair.state = .claiming ∨ s.pair.state = .isolated := by
  simp [observes, or_assoc]

/-- An observed transaction is taken where the observer has frame timing, the placement is defined and the serial is its
own; otherwise the heads on the bus alone have moved (R143, R144). -/
theorem takeObserved_eq (h : HeadId) (c : BusCommand) (w : Window) (s : State) :
    ∃ dv, takeObserved (headAddress h) c w s =
      if s.bus.frame.isSome ∧ (placementOf s h).defined ∧ serialMatches s h c then
        observedOutcome h c (classify (headAddress h) c w) { s with devices := dv }
      else { s with devices := dv } := by
  obtain ⟨dv, acted⟩ := headsActed_frame (headAddress h) c (classify (headAddress h) c w)
    (eachHead (hearCommand (headAddress h) c) s)
  refine ⟨dv, ?_⟩
  unfold takeObserved; dsimp only
  rw [headOfAddress_headAddress, acted]; rfl

/-- An observed frame of a command to a head. -/
theorem observeTransaction_frame {s : State} {h : HeadId} {c : BusCommand} (on : observes s = true) (w : Window)
    (short : ∀ g n b steps, c = .script g n b steps → steps.length ≤ 12) :
    observeTransaction (commandFrame (headAddress h) c) w s = takeObserved (headAddress h) c w (observePartner s) := by
  unfold observeTransaction
  rw [on, isPartnerFrame_commandFrame, Bool.and_self, if_pos rfl, commandOf_commandFrame _ short]; rfl

/-- A transaction that is not taken leaves what any partner frame leaves, but for the heads on the bus. -/
theorem observeTransaction_disregarded {s : State} {h : HeadId} {c : BusCommand} (on : observes s = true) (w : Window)
    (disregarded : s.bus.frame = none ∨ (placementOf s h).defined = false ∨ serialMatches s h c = false
      ∨ ∃ g n b steps, c = .script g n b steps ∧ 13 ≤ steps.length) :
    { observeTransaction (commandFrame (headAddress h) c) w s with devices := s.devices } = observePartner s := by
  by_cases long : ∃ g n b steps, c = .script g n b steps ∧ 13 ≤ steps.length
  · obtain ⟨g, n, b, steps, rfl, long⟩ := long
    unfold observeTransaction
    rw [on, isPartnerFrame_commandFrame, Bool.and_self, if_pos rfl, commandOf_longScript _ g n b long]
    dsimp only; rw [← devices_observePartner]
  · have short : ∀ g n b steps, c = .script g n b steps → steps.length ≤ 12 := fun g n b steps e =>
      Nat.le_of_not_lt fun more => long ⟨g, n, b, steps, e, more⟩
    obtain ⟨dv, taken⟩ := takeObserved_eq h c w (observePartner s)
    rw [observeTransaction_frame on w short, taken, if_neg, ← devices_observePartner]
    rw [frame_observePartner, placementOf_observePartner, serialMatches_observePartner]
    rintro ⟨timed, placed, own⟩
    rcases disregarded with none | undefined | other | more
    · simp [timingNow, none] at timed
    · rw [undefined] at placed; cases placed
    · rw [other] at own; cases own
    · exact long more

/-! ## Outcomes by the state of the record (Table 8.4) -/

section Outcomes
variable {h : HeadId} {s : State} {c : BusCommand} {w : WindowClass}

theorem observedOutcome_unpaired
    (apart : (headOf s h).state = .absent ∨ (headOf s h).state = .failed
      ∨ (headOf s h).state = .joining ∧ commandKind c ≠ 0x10) : observedOutcome h c w s = s := by
  unfold observedOutcome
  generalize (headOf s h).state = st at apart ⊢
  cases c <;> cases st
  case assign.joining => exact absurd apart (by simp [commandKind])
  case assign.loading | assign.serving | assign.recovering | script.loading | script.serving | script.recovering
    | display.loading | display.serving | display.recovering | poll.loading | poll.serving | poll.recovering
    | test.loading | test.serving | test.recovering | resync.loading | resync.serving | resync.recovering =>
    exact absurd apart (by simp)
  all_goals rfl

theorem observedOutcome_assign (serial : Serial) (e : (headOf s h).state = .joining) :
    observedOutcome h (.assign serial) w s = assignOutcome h (takenOf (headOf s h) w) s := by
  unfold observedOutcome; rw [e]

theorem observedOutcome_assign_past (serial : Serial)
    (e : (headOf s h).state = .loading ∨ (headOf s h).state = .serving ∨ (headOf s h).state = .recovering) :
    observedOutcome h (.assign serial) w s = observedAssign h (takenOf (headOf s h) w) s := by
  unfold observedOutcome
  rcases e with e | e | e <;> rw [e]

theorem observedOutcome_script (g n b : Byte) (steps : List Half) (e : (headOf s h).state = .loading) :
    observedOutcome h (.script g n b steps) w s = scriptOutcome h g n b (takenOf (headOf s h) w) s := by
  unfold observedOutcome; rw [e]

theorem observedOutcome_script_past (g n b : Byte) (steps : List Half)
    (e : (headOf s h).state = .serving ∨ (headOf s h).state = .recovering) :
    observedOutcome h (.script g n b steps) w s = observedScript h g n b (takenOf (headOf s h) w) s := by
  unfold observedOutcome
  rcases e with e | e <;> rw [e]

theorem observedOutcome_resync (serial : Serial) (a g : Byte) (d : Display)
    (e : (headOf s h).state = .recovering ∨ (headOf s h).state = .loading ∨ (headOf s h).state = .serving) :
    observedOutcome h (.resync serial a g d) w s = resyncOutcome h d (takenOf (headOf s h) w) s := by
  unfold observedOutcome
  rcases e with e | e | e <;> rw [e]

section Polls
variable (polls : c = .poll ∨ c = .test ∨ ∃ d, c = .display d)
include polls

theorem observedOutcome_serving (e : (headOf s h).state = .serving) :
    observedOutcome h c w s = servingOutcome h c true (takenOf (headOf s h) w) s := by
  unfold observedOutcome; rw [e]
  obtain rfl | rfl | ⟨d, rfl⟩ := polls <;> rfl

theorem observedOutcome_loading (e : (headOf s h).state = .loading) :
    observedOutcome h c w s = loadingOutcome h c true (takenOf (headOf s h) w) s := by
  unfold observedOutcome; rw [e]
  obtain rfl | rfl | ⟨d, rfl⟩ := polls <;> rfl

theorem observedOutcome_recovering (e : (headOf s h).state = .recovering) :
    observedOutcome h c w s = observedRecovering h c (takenOf (headOf s h) w) s := by
  unfold observedOutcome; rw [e]
  obtain rfl | rfl | ⟨d, rfl⟩ := polls <;> rfl

end Polls

end Outcomes

/-- What is in flight and what the heads on the bus do play no part. -/
theorem ObservedRow.of_flight {h : HeadId} {c : BusCommand} {w : WindowClass} {s t : State} {x : Option Transaction}
    {dv : List Device} (row : ObservedRow h c w { s with bus := { s.bus with inFlight := x }, devices := dv } t) :
    ObservedRow h c w s t := by
  cases c with
  | script =>
    obtain ⟨ack, others⟩ := row
    refine ⟨fun e => ?_, others⟩
    obtain ⟨u, record, link, refreshed, only, script⟩ := ack e
    exact ⟨u, record, link, refreshed, only.of_flight, script⟩
  | _ => exact row

/-- The window of an ASSIGN holds no status (R173). -/
theorem classify_assign_bare (address : Byte) (serial : Serial) (w : Window) (st : AckStatus) :
    classify address (.assign serial) w ≠ .valid (.ackStatus st) := by
  unfold classify; split
  · nofun
  · nofun
  · split
    · split
      · next r reply =>
        rintro ⟨⟩
        unfold replyOf at reply
        dsimp only at reply
        split at reply <;> cases reply
      · nofun
    · nofun

/-- The observer's part as its own record's outcome finds it, with the devices given. -/
def observing (timing : FrameTiming) (dv : List Device) (s : State) : State :=
  { partnerFrame s with bus := { s.bus with frame := some timing }, devices := dv }

/-- The outcome of a taken transaction at the observer, with what every row begins with. -/
theorem observeTransaction_taken {s : State} {h : HeadId} {c : BusCommand} {timing : FrameTiming} (w : Window)
    (on : observes s = true) (timed : s.bus.frame = some timing) (placed : (placementOf s h).defined = true)
    (short : ∀ g n b steps, c = .script g n b steps → steps.length ≤ 12) (serial : serialMatches s h c = true) :
    ∃ dv, observeTransaction (commandFrame (headAddress h) c) w s
      = observedOutcome h c (classify (headAddress h) c w)
        (observing { timing with slot := Fin.ofNat 100 (min 99 ((s.now - timing.start) / 2)) } dv s) := by
  have now : timingNow s = some { timing with slot := Fin.ofNat 100 (min 99 ((s.now - timing.start) / 2)) } := by
    unfold timingNow; rw [timed]; rfl
  obtain ⟨dv, taken⟩ := takeObserved_eq h c w (observePartner s)
  refine ⟨dv, ?_⟩
  rw [observeTransaction_frame on w short, taken, if_pos, observePartner_eq, now]
  · rfl
  · rw [frame_observePartner, placementOf_observePartner, serialMatches_observePartner, now]
    exact ⟨rfl, placed, serial⟩

end Sys2Proof.Machine

namespace Sys2Proof.Proofs
open Sys2Proof Sys2Proof.Machine

/-- Settles O53: a taken transaction is one outcome at the observer's own record, whose rows stand above by command and
state; one that is not taken leaves what a partner frame leaves. -/
theorem observedTransactions : Obligations.ObservedTransactions := by
  refine ⟨fun s h c w timing observers timed placed addressed short assigns resyncs => ?_,
    fun s h c w observers disregarded => ?_⟩
  · have serial : serialMatches s h c = true := by
      cases c with
      | assign x => exact beq_iff_eq.mpr (assigns x rfl)
      | resync x a g d => exact beq_iff_eq.mpr (resyncs x a g d rfl)
      | _ => rfl
    obtain ⟨dv, run⟩ := observeTransaction_taken w ((observes_iff s).mpr observers) timed placed short serial
    let u := observing { timing with slot := Fin.ofNat 100 (min 99 ((s.now - timing.start) / 2)) } dv s
    have outcome : observeTransaction (commandFrame (headAddress h) c) w s
        = observedOutcome h c (classify (headAddress h) c w) u := run
    have acts := observedOutcome_acts h u c (classify (headAddress h) c w)
    refine ⟨_, exec_observedTransaction .., ?_⟩
    rw [outcome, ← headOf_partnerFrame]
    refine ⟨acts.onlyHead.of_flight, (congrArg Bus.inFlight acts.bus :), fun apart => ?_, ?_, ?_, fun polls e => ?_,
      fun polls e => ?_, ?_, ?_, ?_, fun polls e => ?_⟩
    · rw [observedOutcome_unpaired (s := u) apart]; exact ⟨rfl, rfl, rfl, rfl⟩
    · rintro x rfl e
      rw [observedOutcome_assign (s := u) x e]; exact assignRow_assignOutcome (s := u)
    · rintro g n b steps rfl e
      rw [observedOutcome_script (s := u) g n b steps e]; exact scriptRow_scriptOutcome (s := u) e
    · rw [observedOutcome_serving (s := u) polls e]; exact servingRow_servingOutcome (s := u)
    · rw [observedOutcome_loading (s := u) polls e]; exact loadingRow_loadingOutcome (s := u)
    · rintro x a g d rfl e
      rw [observedOutcome_resync (s := u) x a g d e]; exact resyncRow_resyncOutcome (s := u)
    · rintro ⟨x, rfl⟩ e
      rw [observedOutcome_assign_past (s := u) x e]; exact (observedRow_assign (classify_assign_bare _ x w)).of_flight
    · rintro ⟨g, n, b, steps, rfl⟩ e
      rw [observedOutcome_script_past (s := u) g n b steps e]; exact observedRow_script.of_flight
    · rw [observedOutcome_recovering (s := u) polls e]; exact (observedRow_recovering polls).of_flight
  · refine ⟨_, exec_observedTransaction .., ?_⟩
    rw [← observePartner_eq]
    refine observeTransaction_disregarded ((observes_iff s).mpr observers) w ?_
    rcases disregarded with none | undefined | ⟨x, rfl, other⟩ | ⟨x, a, g, d, rfl, other⟩ | long
    · exact .inl none
    · exact .inr (.inl undefined)
    · exact .inr (.inr (.inl (beq_eq_false_iff_ne.mpr other)))
    · exact .inr (.inr (.inl (beq_eq_false_iff_ne.mpr other)))
    · exact .inr (.inr (.inr long))

end Sys2Proof.Proofs
end

section
/-! The start of a frame: when slot 0 may begin, what it leaves, and the plan that it builds (R91, R100, R102, R104, R116,
R136). -/

namespace Sys2Proof.Machine

/-! ## Slot 0 -/

theorem mayStartFrame_iff (s : State) :
    mayStartFrame s = true
      ↔ (s.pair.state = .solo ∨ s.pair.state = .duty) ∧ s.pair.isolating = false ∧ s.bus.inFlight = none := by
  simp [mayStartFrame, and_assoc]

theorem now_le_nextStart (s : State) : s.now ≤ nextStart s := by
  unfold nextStart; split
  · exact Nat.le_max_left ..
  · exact Nat.le_refl _

theorem modeClassCode_eq (s : State) : modeClassCode s = if s.mode = .alarm then 1 else 0 := by
  unfold modeClassCode alarmClass
  cases s.mode <;> rfl

/-- A frame begun at a time with a broadcast, as the heads on the bus hear it (R91, R102, R104, R116). -/
def frameBegun (start : Nat) (command : Byte → Byte → BusCommand) (hear : Heard → Device → Device) (s : State) : State :=
  { s with
    now := start, queue := clearHeld s.queue
    bus :=
      { frame := some ⟨start, 0⟩, plan := some (buildPlan s), beat := s.bus.nextBeat, nextBeat := s.bus.nextBeat + 1
        contention := s.bus.contention, releaseAll := false, inFlight := none
        line := some (commandFrame 0 (command s.bus.nextBeat (if s.mode = .alarm then 1 else 0))).bytes }
    devices := s.devices.map (hear (broadcastHeard s)), heard := some (broadcastHeard s) }

theorem reachTime_later {s : State} {start : Nat} (later : s.now ≤ start) :
    reachTime start s = { s with now := start } := by
  unfold reachTime; rw [Nat.max_eq_right later]

theorem sendBeat_eq {s : State} {start : Nat} (later : s.now ≤ start) (beat : s.bus.releaseAll = false) :
    sendBeat start s = frameBegun start .beat hearBeat s := by
  have kept : sendBeat start s = { frameBegun start .beat hearBeat s with
      bus := { (frameBegun start .beat hearBeat s).bus with releaseAll := s.bus.releaseAll } } := by
    unfold sendBeat frameBegun
    rw [← modeClassCode_eq, reachTime_later later]; rfl
  rw [kept, beat]; rfl

theorem sendReleaseAll_eq {s : State} {start : Nat} (later : s.now ≤ start) :
    sendReleaseAll start s = frameBegun start .releaseAll hearRelease s := by
  unfold sendReleaseAll frameBegun
  rw [← modeClassCode_eq, reachTime_later later]; rfl

/-! ## The frame plan (R102, Table 6.3) -/

/-- How many heads in service stand before a head (R102). -/
def servedBefore (s : State) (h : HeadId) : Nat :=
  countIndex 64 fun k => inService (headOf s k).state && decide (k < h)

theorem length_inServiceHeads (s : State) :
    (inServiceHeads s).length = countIndex 64 fun h => inService (headOf s h).state := List.countP_eq_length_filter.symm

theorem length_inServiceHeads_le (s : State) : (inServiceHeads s).length ≤ 64 := by
  have := List.length_filter_le (fun h : HeadId => inService (headOf s h).state) (List.finRange 64)
  rwa [List.length_finRange] at this

/-- A head in service stands in the in-service set behind those of lower index (R102). -/
theorem inServiceHeads_servedBefore {s : State} {h : HeadId} (serves : inService (headOf s h).state = true) :
    (inServiceHeads s)[servedBefore s h]? = some h := by
  obtain ⟨as, bs, split⟩ := List.append_of_mem (List.mem_finRange h)
  have sorted : (List.finRange 64).Pairwise (· < ·) := List.pairwise_lt_finRange 64
  rw [split, List.pairwise_append, List.pairwise_cons] at sorted
  obtain ⟨-, ⟨after, -⟩, before⟩ := sorted
  have none : (h :: bs).countP (fun k => inService (headOf s k).state && decide (k < h)) = 0 := by
    rw [List.countP_eq_zero]
    intro k m
    rcases List.mem_cons.mp m with rfl | m
    · simp
    · simp [(after k m).le]
  have count : servedBefore s h = (as.filter fun k => inService (headOf s k).state).length := by
    unfold servedBefore countIndex
    rw [split, List.countP_append, none, Nat.add_zero, ← List.countP_eq_length_filter]
    exact List.countP_congr fun k m => by simp [before k m h List.mem_cons_self]
  unfold inServiceHeads
  rw [split, List.filter_append, count, List.getElem?_append_right (Nat.le_refl _), Nat.sub_self,
    List.filter_cons_of_pos (by exact serves)]
  rfl

/-- Each place of the in-service set is that of its head. -/
theorem servedBefore_of_place {s : State} {h : HeadId} {i : Nat} (place : (inServiceHeads s)[i]? = some h) :
    inService (headOf s h).state = true ∧ i = servedBefore s h := by
  have serves : inService (headOf s h).state = true := (List.mem_filter.mp (List.mem_of_getElem? place)).2
  have once : (inServiceHeads s).Nodup := (List.nodup_finRange 64).filter _
  obtain ⟨low, here⟩ := List.getElem?_eq_some_iff.mp place
  obtain ⟨low', there⟩ := List.getElem?_eq_some_iff.mp (inServiceHeads_servedBefore serves)
  exact ⟨serves, once.getElem_inj_iff.mp (here.trans there.symm)⟩

/-- Two places of at most 97 have different POLL slots (Table 6.3). -/
theorem pollSlotOf_inj {i j n : Nat} (few : n ≤ 97) (hi : i < n) (hj : j < n) (same : pollSlotOf i n = pollSlotOf j n) :
    i = j := by
  have apart {a b : Nat} (less : a < b) (hb : b < n) : pollSlotOf a n < pollSlotOf b n := by
    have next : a * 97 + n ≤ b * 97 := by omega
    have step : a * 97 / n + 1 ≤ b * 97 / n := by
      rw [← Nat.add_div_right _ (by omega : 0 < n)]; exact Nat.div_le_div_right next
    unfold pollSlotOf; omega
  rcases Nat.lt_trichotomy i j with less | e | more
  · exact absurd same (apart less hj).ne
  · exact e
  · exact absurd same (apart more hi).ne'

theorem pollSlotOf_lt {i n : Nat} (hi : i < n) : pollSlotOf i n < 100 := by
  have : i * 97 / n < 97 := (Nat.div_lt_iff_lt_mul (by omega)).mpr (by rw [Nat.mul_comm]; omega)
  unfold pollSlotOf; omega

/-- A head is polled in the slot of its place (Table 6.3). -/
theorem pollHead_place {heads : List HeadId} {i : Nat} {h : HeadId} (few : heads.length ≤ 97) (place : heads[i]? = some h) :
    pollHead heads (pollSlotOf i heads.length) = some h := by
  unfold pollHead
  cases found : heads.zipIdx.find? fun e => pollSlotOf e.2 heads.length == pollSlotOf i heads.length with
  | none =>
    have := List.find?_eq_none.mp found (h, i) (List.mk_mem_zipIdx_iff_getElem?.mpr place)
    simp at this
  | some e =>
    have slot := List.find?_some found
    have there := List.mem_zipIdx_iff_getElem?.mp (List.mem_of_find?_eq_some found)
    have same : e.2 = i := pollSlotOf_inj few (List.getElem?_eq_some_iff.mp there).1 (List.getElem?_eq_some_iff.mp place).1
      (by simpa using slot)
    rw [same, place] at there
    exact there.symm

/-- No head is polled in a slot of no place. -/
theorem pollHead_free {heads : List HeadId} {k : Nat}
    (free : ∀ i h, heads[i]? = some h → pollSlotOf i heads.length ≠ k) : pollHead heads k = none := by
  unfold pollHead
  rw [Option.map_eq_none_iff, List.find?_eq_none]
  intro e m
  simpa using free e.2 e.1 (List.mem_zipIdx_iff_getElem?.mp m)

theorem look_buildPlan (s : State) (k : SlotId) :
    look (buildPlan s) k = slotKindAt s.bus.releaseAll s.pair.enabled (inServiceHeads s) k.val := look_tabulate _ k

theorem slotKindAt_rest (a b : Bool) (heads : List HeadId) {k : Nat} (rest : 3 ≤ k) :
    slotKindAt a b heads k = match pollHead heads k with
      | some h => .poll h
      | none => .update := by
  obtain ⟨k, rfl⟩ := Nat.exists_eq_add_of_le' rest
  rfl

theorem buildPlan_poll {s : State} {h : HeadId} (serves : inService (headOf s h).state = true) :
    ∃ k : SlotId, k.val = pollSlotOf (servedBefore s h) (inServiceHeads s).length ∧ look (buildPlan s) k = .poll h := by
  have place := inServiceHeads_servedBefore serves
  have few := length_inServiceHeads_le s
  refine ⟨⟨_, pollSlotOf_lt (List.getElem?_eq_some_iff.mp place).1⟩, rfl, ?_⟩
  rw [look_buildPlan, slotKindAt_rest _ _ _ (by exact Nat.le_add_right 3 _), pollHead_place (by omega) place]

theorem buildPlan_update {s : State} {k : SlotId} (rest : 3 ≤ k.val)
    (free : ∀ h, inService (headOf s h).state = true → k.val ≠ pollSlotOf (servedBefore s h) (inServiceHeads s).length) :
    look (buildPlan s) k = .update := by
  rw [look_buildPlan, slotKindAt_rest _ _ _ rest, pollHead_free]
  intro i h place
  obtain ⟨serves, rfl⟩ := servedBefore_of_place place
  exact (free h serves).symm

end Sys2Proof.Machine

namespace Sys2Proof.Proofs
open Sys2Proof Sys2Proof.Machine

/-- Settles O42: slot 0 in one equation for either broadcast, and the plan by the place of each head in service. -/
theorem startOfFrame : Obligations.StartOfFrame := by
  refine ⟨fun s => ⟨fun may beat => ?_, fun may release => ?_, fun may => ?_⟩, fun s => ?_⟩
  · rw [exec_beat, exec_releaseAll, (mayStartFrame_iff s).mpr may, beat]
    exact ⟨congrArg Host.Outcome.next (sendBeat_eq (now_le_nextStart s) beat), rfl⟩
  · rw [exec_beat, exec_releaseAll, (mayStartFrame_iff s).mpr may, release]
    exact ⟨congrArg Host.Outcome.next (sendReleaseAll_eq (now_le_nextStart s)), rfl⟩
  · rw [exec_beat, exec_releaseAll, Bool.eq_false_of_not_eq_true (mt (mayStartFrame_iff s).mp may)]
    exact ⟨rfl, rfl⟩
  · have n := length_inServiceHeads s
    refine ⟨look_buildPlan s 0, look_buildPlan s 1, look_buildPlan s 2, fun h serves => ?_, fun k rest free => ?_⟩
    · have poll := buildPlan_poll serves
      rw [n] at poll; exact poll
    · refine buildPlan_update rest ?_
      rw [n]; exact free

end Sys2Proof.Proofs
end

section
/-! What the slots of a frame send: when a slot is ready, and the command that each kind of slot carries (R92, R99 to
R110). -/

namespace Sys2Proof.Machine

/-! ## Slots in turn -/

/-- The controller may send in a slot: it drives the bus, no ISOLATE waits, and nothing is in flight (R99, R142). -/
def MaySend (s : State) : Prop :=
  (s.pair.state = .solo ∨ s.pair.state = .duty ∨ s.pair.state = .yielding) ∧ s.pair.isolating = false
    ∧ s.bus.inFlight = none

theorem slotReady_iff (k : SlotId) (kind : SlotKind) (s : State) :
    slotReady k kind s = true
      ↔ MaySend s ∧ s.bus.frame.isSome = true ∧ ∃ plan, s.bus.plan = some plan ∧ look plan k = kind := by
  unfold slotReady MaySend
  cases s.bus.plan <;> simp [mayDrive, and_assoc, or_assoc]

/-- A slot begun in a frame, with nothing sent (R100). -/
def slotBegun (f : FrameTiming) (k : SlotId) (s : State) : State :=
  { s with
    now := max s.now (f.start + 2 * k.val), bus := { s.bus with frame := some { f with slot := k }, line := none } }

theorem startSlot_eq {s : State} {f : FrameTiming} (timed : s.bus.frame = some f) (k : SlotId) :
    startSlot k s = slotBegun f k s := by
  unfold startSlot; rw [timed]; rfl

section InTurn
variable {s : State} {k : SlotId} {f : FrameTiming} {plan : Vector SlotKind 100}

theorem enrolSlot_late (late : slotReady 1 .enrol s ≠ true) : enrolSlot s = s := if_neg late
theorem partnerSlot_late (late : slotReady 2 .partner s ≠ true) : partnerSlot s = s := if_neg late
theorem updateSlot_late (late : slotReady k .update s ≠ true) : updateSlot k s = s := if_neg late

theorem pollSlot_late (late : ∀ h, slotReady k (.poll h) s ≠ true) : pollSlot k s = s := by
  unfold pollSlot; split
  · next h _ => exact if_neg (late h)
  · rfl

/-- A slot of another kind, or one out of turn, is not ready. -/
theorem slotReady_otherKind {kind : SlotKind} (planned : s.bus.plan = some plan) (other : look plan k ≠ kind) :
    slotReady k kind s ≠ true := by
  rw [ne_eq, slotReady_iff, planned]
  rintro ⟨-, -, _, ⟨⟩, same⟩
  exact other same

theorem slotReady_outOfTurn (kind : SlotKind) (out : ¬MaySend s ∨ s.bus.frame = none ∨ s.bus.plan = none) :
    slotReady k kind s ≠ true := by
  rw [ne_eq, slotReady_iff]
  rintro ⟨may, timed, plan, planned, -⟩
  rcases out with idle | untimed | unplanned
  · exact idle may
  · rw [untimed] at timed; cases timed
  · rw [unplanned] at planned; cases planned

variable (may : MaySend s) (timed : s.bus.frame = some f) (planned : s.bus.plan = some plan)
include may timed planned

theorem slotReady_inTurn {kind : SlotKind} (same : look plan k = kind) : slotReady k kind s = true :=
  (slotReady_iff k kind s).mpr ⟨may, by rw [timed]; rfl, plan, planned, same⟩

theorem enrolSlot_sends (kind : look plan 1 = .enrol) :
    enrolSlot s = sendCommand 1 .enrol 0 none (.invite s.bus.contention) (slotBegun f 1 s) := by
  unfold enrolSlot
  rw [if_pos (slotReady_inTurn may timed planned kind), startSlot_eq timed]; rfl

theorem partnerSlot_sends (kind : look plan 2 = .partner) :
    partnerSlot s
      = sendCommand 2 .partner 126 none (.query s.engine.digest (modeCode s.mode) s.bus.beat) (slotBegun f 2 s) := by
  unfold partnerSlot
  rw [if_pos (slotReady_inTurn may timed planned kind), startSlot_eq timed]; rfl

theorem updateSlot_silent (kind : look plan k = .update) (nothing : eligibleEntry s = none) :
    updateSlot k s = slotBegun f k s := by
  unfold updateSlot
  rw [if_pos (slotReady_inTurn may timed planned kind), startSlot_eq timed, nothing]

theorem updateSlot_sends {e : Entry} (kind : look plan k = .update) (eligible : eligibleEntry s = some e) :
    updateSlot k s
      = sendCommand k .update (headAddress e.head) (some e.head) (.display e.display) (slotBegun f k s) := by
  unfold updateSlot
  rw [if_pos (slotReady_inTurn may timed planned kind), startSlot_eq timed, eligible]

omit may timed in
theorem plannedHead_poll {h : HeadId} (kind : look plan k = .poll h) : plannedHead k s = some h := by
  unfold plannedHead; rw [planned]; dsimp only; rw [kind]

theorem pollSlot_silent {h : HeadId} (kind : look plan k = .poll h) (silent : pollCommand s h = none) :
    pollSlot k s = slotBegun f k s := by
  unfold pollSlot
  rw [plannedHead_poll planned kind]; dsimp only
  rw [if_pos (slotReady_inTurn may timed planned kind), startSlot_eq timed, silent]

theorem pollSlot_sends {h : HeadId} {c : BusCommand} (kind : look plan k = .poll h) (sends : pollCommand s h = some c) :
    pollSlot k s = sendCommand k (.poll h) (headAddress h) (some h) c (slotBegun f k s) := by
  unfold pollSlot
  rw [plannedHead_poll planned kind]; dsimp only
  rw [if_pos (slotReady_inTurn may timed planned kind), startSlot_eq timed, sends]

end InTurn

/-! ## The entry of an UPDATE slot (R92) -/

theorem eligibleEntry_none {s : State} (idle : ∀ e ∈ s.queue, ¬((headOf s e.head).state = .serving ∧ e.held = false)) :
    eligibleEntry s = none := by
  unfold eligibleEntry
  rw [List.find?_eq_none]
  intro e m
  simpa using idle e m

theorem eligibleEntry_first {s : State} {before after : List Entry} {e : Entry} (split : s.queue = before ++ e :: after)
    (eligible : (headOf s e.head).state = .serving ∧ e.held = false)
    (first : ∀ x ∈ before, ¬((headOf s x.head).state = .serving ∧ x.held = false)) : eligibleEntry s = some e := by
  unfold eligibleEntry
  rw [List.find?_eq_some_iff_append]
  exact ⟨by simpa using eligible, before, after, split, fun x m => by simpa [imp_iff_not_or] using first x m⟩

/-! ## The block of a LOADING head (R110) -/

/-- Block n of a script, with the steps it carries (R110). -/
def IsBlock (all : List ScriptStep) (block : Nat) (steps : List ScriptStep) : Prop :=
  (block = 0 ∧ steps = all.take 12) ∨ (block = 1 ∧ 12 < all.length ∧ steps = all.drop 12)

theorem mem_blocksOf {all steps : List ScriptStep} {block : Nat} :
    (block, steps) ∈ blocksOf all ↔ IsBlock all block steps := by
  unfold blocksOf IsBlock Config.blockSteps; split
  · next short =>
    rw [List.take_of_length_le short]
    simp [short]
  · next long => simp [Nat.lt_of_not_le long]

/-- The blocks of one script of the library, where it is defined and fits (R110). -/
def scriptBlocks (held : Option (List ScriptStep)) (capacity number : Nat) : List (Nat × Nat × List ScriptStep) :=
  match held with
  | some steps => if steps.length ≤ capacity then (blocksOf steps).map fun b => (number, b.1, b.2) else []
  | none => []

theorem libraryBlocks_eq (sel : Selector) (capacity : Nat) :
    libraryBlocks sel capacity
      = (List.finRange 12).flatMap fun i => scriptBlocks (look sel.library i) capacity (i.val + 1) := rfl

theorem mem_scriptBlocks {held : Option (List ScriptStep)} {capacity number script block : Nat} {steps : List ScriptStep} :
    (script, block, steps) ∈ scriptBlocks held capacity number
      ↔ script = number ∧ ∃ all, held = some all ∧ all.length ≤ capacity ∧ IsBlock all block steps := by
  unfold scriptBlocks
  cases held with
  | none => simp
  | some all =>
    by_cases fits : all.length ≤ capacity
    · simp [fits, mem_blocksOf, eq_comm, and_comm]
    · simp [fits]

/-- Blocks in ascending script and block number (R110). -/
def blockBefore (a b : Nat × Nat × List ScriptStep) : Prop := a.1 < b.1 ∨ a.1 = b.1 ∧ a.2.1 < b.2.1

theorem scriptBlocks_ascend (held : Option (List ScriptStep)) (capacity number : Nat) :
    (scriptBlocks held capacity number).Pairwise blockBefore := by
  unfold scriptBlocks; split
  · split
    · unfold blocksOf; split
      · exact List.pairwise_singleton _ _
      · exact List.pairwise_pair.mpr (.inr ⟨rfl, Nat.zero_lt_one⟩)
    · exact .nil
  · exact .nil

theorem libraryBlocks_ascend (sel : Selector) (capacity : Nat) : (libraryBlocks sel capacity).Pairwise blockBefore := by
  rw [libraryBlocks_eq, List.pairwise_flatMap]
  refine ⟨fun i _ => scriptBlocks_ascend .., (List.pairwise_lt_finRange 12).imp fun {i j} less a ma b mb => .inl ?_⟩
  rw [(mem_scriptBlocks.mp ma).1, (mem_scriptBlocks.mp mb).1]
  exact Nat.succ_lt_succ less

/-- In an ascending list the one that none precedes is the first found. -/
theorem find?_of_least {α : Type} {r : α → α → Prop} {p : α → Bool} {l : List α} {x : α} (ascend : l.Pairwise r) (m : x ∈ l)
    (meets : p x = true) (least : ∀ y ∈ l, p y = true → ¬r y x) : l.find? p = some x := by
  cases found : l.find? p with
  | none => exact absurd meets (List.find?_eq_none.mp found x m)
  | some y =>
    obtain ⟨first, as, bs, split, before⟩ := List.find?_eq_some_iff_append.mp found
    rw [split] at m ascend
    rcases List.mem_append.mp m with early | late
    · exact absurd meets (by simpa using before x early)
    · rcases List.mem_cons.mp late with rfl | late
      · rfl
      · have after := (List.pairwise_cons.mp (List.pairwise_append.mp ascend).2.1).1 x late
        exact absurd after (least y (split ▸ List.mem_append_right _ List.mem_cons_self) first)

/-- A block of the library that a head still wants (R110). -/
def Wanted (s : State) (h : HeadId) (script block : Nat) (steps : List ScriptStep) : Prop :=
  (script, block, steps) ∈ libraryBlocks s.selector (capacityOf (headOf s h)) ∧ (script, block) ∉ (headOf s h).loaded

theorem wanted_iff {s : State} {h : HeadId} {script block : Nat} {steps : List ScriptStep} :
    Wanted s h script block steps
      ↔ ∃ (i : Fin 12) (all : List ScriptStep), script = i.val + 1 ∧ look s.selector.library i = some all
        ∧ all.length ≤ capacityOf (headOf s h) ∧ IsBlock all block steps ∧ (script, block) ∉ (headOf s h).loaded := by
  unfold Wanted
  rw [libraryBlocks_eq, List.mem_flatMap]
  simp only [List.mem_finRange, true_and, mem_scriptBlocks, ← exists_and_left, ← exists_and_right, and_assoc]

theorem nextScript_closing {s : State} {h : HeadId} (none : ∀ script block steps, ¬Wanted s h script block steps) :
    nextScript s h = .script s.selector.generation 0 0 [] := by
  have found : (libraryBlocks s.selector (capacityOf (headOf s h))).find?
      (fun b => !decide ((b.1, b.2.1) ∈ (headOf s h).loaded)) = Option.none := by
    rw [List.find?_eq_none]
    rintro ⟨script, block, steps⟩ m
    simpa using fun absent => none script block steps ⟨m, absent⟩
  unfold nextScript; dsimp only; rw [found]

theorem nextScript_block {s : State} {h : HeadId} {script block : Nat} {steps : List ScriptStep}
    (wanted : Wanted s h script block steps)
    (least : ∀ script' block' steps', Wanted s h script' block' steps' →
      script < script' ∨ (script = script' ∧ block ≤ block')) :
    nextScript s h = .script s.selector.generation (natByte script) (natByte block) (steps.map stepCode) := by
  have found : (libraryBlocks s.selector (capacityOf (headOf s h))).find?
      (fun b => !decide ((b.1, b.2.1) ∈ (headOf s h).loaded)) = some (script, block, steps) := by
    refine find?_of_least (libraryBlocks_ascend ..) wanted.1 (by simpa using wanted.2) ?_
    rintro ⟨script', block', steps'⟩ m absent
    have := least script' block' steps' ⟨m, by simpa using absent⟩
    unfold blockBefore; dsimp only; omega
  unfold nextScript; dsimp only; rw [found]

/-! ## The command of a POLL slot (Table 6.4) -/

section Poll
variable {s : State} {h : HeadId}

theorem pollCommand_absent (e : (headOf s h).state = .absent ∨ (headOf s h).state = .failed) : pollCommand s h = none := by
  unfold pollCommand
  rcases e with e | e <;> rw [e]

theorem pollCommand_joining (e : (headOf s h).state = .joining) :
    pollCommand s h = some (.assign (placementOf s h).serial) := by
  unfold pollCommand; rw [e]

theorem pollCommand_loading (e : (headOf s h).state = .loading) : pollCommand s h = some (nextScript s h) := by
  unfold pollCommand; rw [e]

theorem pollCommand_recovering {d : Display} (e : (headOf s h).state = .recovering) (wants : desiredOf s h = some d) :
    pollCommand s h = some (.resync (placementOf s h).serial (headAddress h) s.selector.generation d) := by
  unfold pollCommand; rw [e, wants]; rfl

theorem pollCommand_entry {e : Entry} (serving : (headOf s h).state = .serving) (found : entryOf s.queue h = some e) :
    pollCommand s h = if e.held then some .poll else some (.display e.display) := by
  unfold pollCommand; rw [serving, found]

theorem pollCommand_noEntry (serving : (headOf s h).state = .serving) (absent : entryOf s.queue h = none) :
    pollCommand s h = if (headOf s h).testPending then some .test else some .poll := by
  unfold pollCommand; rw [serving, absent]

end Poll

end Sys2Proof.Machine

namespace Sys2Proof.Proofs
open Sys2Proof Sys2Proof.Machine

/-- Settles O43: a ready slot begins and sends the command of its kind, and a slot that is not ready does nothing. -/
theorem slotsSend : Obligations.SlotsSend := by
  intro s k
  refine ⟨fun f plan may timed planned => ⟨fun kind => ?_, fun kind => ?_, fun kind => ⟨fun idle => ?_,
    fun before e after split eligible first => ?_⟩, fun h kind => ?_⟩, fun plan planned => ?_, fun out => ?_⟩
  · rw [exec_enrol, enrolSlot_sends may timed planned kind]; rfl
  · rw [exec_partnerSlot, partnerSlot_sends may timed planned kind]; rfl
  · rw [exec_updateSlot, updateSlot_silent may timed planned kind (eligibleEntry_none idle)]; rfl
  · rw [exec_updateSlot, updateSlot_sends may timed planned kind (eligibleEntry_first split eligible first)]; rfl
  · have sends {c : BusCommand} (command : pollCommand s h = some c) : exec (.pollSlot k) s
        = .next (sendCommand k (.poll h) (headAddress h) (some h) c (slotBegun f k s)) :=
      congrArg Host.Outcome.next (pollSlot_sends may timed planned kind command)
    refine ⟨fun e => ?_, fun e => sends (pollCommand_joining e),
      fun e => ⟨fun none => ?_, fun script block steps wanted least => ?_⟩,
      fun d e wants => sends (pollCommand_recovering e wants), fun e serving found free => ?_,
      fun e serving found held => ?_, fun serving absent pending => ?_, fun serving absent idle => ?_⟩
    · exact congrArg Host.Outcome.next (pollSlot_silent may timed planned kind (pollCommand_absent e))
    · have closing := nextScript_closing fun script block steps wanted => none script block steps (wanted_iff.mp wanted)
      exact sends ((pollCommand_loading e).trans (congrArg some closing))
    · have next := nextScript_block (wanted_iff.mpr wanted) fun script' block' steps' wanted' =>
        least script' block' steps' (wanted_iff.mp wanted')
      exact sends ((pollCommand_loading e).trans (congrArg some next))
    · exact sends ((pollCommand_entry serving found).trans (by rw [free]; rfl))
    · exact sends ((pollCommand_entry serving found).trans (by rw [held]; rfl))
    · exact sends ((pollCommand_noEntry serving absent).trans (by rw [pending]; rfl))
    · exact sends ((pollCommand_noEntry serving absent).trans (by rw [idle]; rfl))
  · refine ⟨fun other => ?_, fun other => ?_, fun other => ?_, fun other => ?_⟩
    · exact congrArg Host.Outcome.next (enrolSlot_late (slotReady_otherKind planned other))
    · exact congrArg Host.Outcome.next (partnerSlot_late (slotReady_otherKind planned other))
    · exact congrArg Host.Outcome.next (updateSlot_late (slotReady_otherKind planned other))
    · exact congrArg Host.Outcome.next (pollSlot_late fun h => slotReady_otherKind planned (other h))
  · refine ⟨?_, ?_, ?_, ?_⟩
    · exact congrArg Host.Outcome.next (enrolSlot_late (slotReady_outOfTurn .enrol out))
    · exact congrArg Host.Outcome.next (partnerSlot_late (slotReady_outOfTurn .partner out))
    · exact congrArg Host.Outcome.next (updateSlot_late (slotReady_outOfTurn .update out))
    · exact congrArg Host.Outcome.next (pollSlot_late fun h => slotReady_outOfTurn (.poll h) out)

end Sys2Proof.Proofs
end

section
/-! The release of all heads in one piece, and the requests TEST HEAD, RESTORE HEAD and RESTART BUS (R96, R115, R118, R128,
R130, R131). -/

namespace Sys2Proof.Machine

/-! ## Heads released one after another -/

/-- The TEST notices of the pending tests of the heads listed (R131, log 20). -/
def pendingTests (hs : List HeadId) (s : State) : List Notice :=
  (hs.filter fun h => (headOf s h).testPending).map fun h => .test h none

theorem endTest_atHead_self (h : HeadId) (s : State) :
    endTest h s = atHead h { headOf s h with testPending := false } s.queue (testNotices s h) s := endTest_eq h s

theorem enterAbsent_eq (h : HeadId) (s : State) :
    enterAbsent false h s = dropDisplay h (atHead h Head.reset s.queue (testNotices s h) s) := by
  unfold enterAbsent
  rw [endTest_atHead_self, setHead_atHead]; rfl

/-- The heads of a list have entered ABSENT, one after another. -/
structure Released (hs : List HeadId) (s t : State) : Prop where
  frame : ∃ r d q, t = { s with
    heads := { s.heads with records := r }, selector := { s.selector with desired := d }, queue := q
    link := offerAll (pendingTests hs s) s.link }
  heads : ∀ k, headOf t k = if k ∈ hs then Head.reset else headOf s k
  desired : ∀ k, desiredOf t k = if k ∈ hs then none else desiredOf s k

theorem Released.nil (s : State) : Released [] s s := ⟨⟨_, _, _, rfl⟩, fun _ => rfl, fun _ => rfl⟩

theorem Released.cons {h : HeadId} {hs : List HeadId} {s t : State} (new : h ∉ hs)
    (rest : Released hs (enterAbsent false h s) t) : Released (h :: hs) s t := by
  obtain ⟨⟨r, d, q, frame⟩, heads, desired⟩ := rest
  have record (k : HeadId) : headOf (enterAbsent false h s) k = if h = k then Head.reset else headOf s k := by
    rw [enterAbsent_eq]; exact look_store ..
  have wants (k : HeadId) : desiredOf (enterAbsent false h s) k = if h = k then none else desiredOf s k := by
    rw [enterAbsent_eq]; exact look_store ..
  have later : pendingTests hs (enterAbsent false h s) = pendingTests hs s := by
    unfold pendingTests
    congr 1
    exact List.filter_congr fun k m => by rw [record, if_neg (ne_of_mem_of_not_mem m new).symm]
  have all : pendingTests (h :: hs) s = testNotices s h ++ pendingTests hs s := by
    unfold pendingTests testNotices
    by_cases pending : (headOf s h).testPending = true <;> simp [pending]
  refine ⟨⟨r, d, q, ?_⟩, fun k => ?_, fun k => ?_⟩
  · rw [frame, later, all, offerAll_append, enterAbsent_eq]; rfl
  · rw [heads, record]
    by_cases e : h = k
    · subst e; simp
    · simp [e, Ne.symm e]
  · rw [desired, wants]
    by_cases e : h = k
    · subst e; simp
    · simp [e, Ne.symm e]

theorem foldl_enterAbsent (hs : List HeadId) (once : hs.Nodup) (s : State) :
    Released hs s (hs.foldl (fun s h => enterAbsent false h s) s) := by
  induction hs generalizing s with
  | nil => exact .nil s
  | cons h hs ih =>
    obtain ⟨new, once⟩ := List.nodup_cons.mp once
    exact .cons new (ih once _)

/-- The part with every head released (R115, R143). -/
def headless (s : State) : State :=
  { s with
    heads := ⟨Vector.replicate 64 Head.reset, [], none⟩
    selector := { s.selector with desired := Vector.replicate 64 none }
    queue := [], link := offerAll (pendingTests (List.finRange 64) s) s.link }

theorem releaseHeads_eq (s : State) : releaseHeads s = headless s := by
  obtain ⟨⟨r, d, q, frame⟩, heads, desired⟩ := foldl_enterAbsent (List.finRange 64) (List.nodup_finRange 64) s
  rw [frame] at heads desired
  have records : r = Vector.replicate 64 Head.reset := table_ext fun k => by
    rw [look_replicate]; exact (heads k).trans (if_pos (List.mem_finRange k))
  have displays : d = Vector.replicate 64 none := table_ext fun k => by
    rw [look_replicate]; exact (desired k).trans (if_pos (List.mem_finRange k))
  unfold releaseHeads headless
  rw [forEach, frame, records, displays]

/-! ## TEST HEAD and RESTORE HEAD -/

section Requests
variable {index : Byte} {s : State}

theorem testHead_badIndex (out : 64 ≤ index.toNat) : testHead index s = refuse .badIndex s := by
  unfold testHead; rw [indexOf_none.mpr out]

theorem restoreHead_badIndex (out : 64 ≤ index.toNat) : restoreHead index s = refuse .badIndex s := by
  unfold restoreHead; rw [indexOf_none.mpr out]

section Named
variable {h : HeadId} (named : index.toNat = h.val)
include named

theorem testHead_wrongMode (other : (headOf s h).state ≠ .serving) : testHead index s = refuse .wrongMode s := by
  unfold testHead; rw [indexOf_some named]; exact if_pos other

theorem testHead_busy (serving : (headOf s h).state = .serving) (pending : (headOf s h).testPending = true) :
    testHead index s = refuse .busy s := by
  unfold testHead; rw [indexOf_some named]; dsimp only
  rw [if_neg (not_not.mpr serving), if_pos pending]

theorem testHead_taken (serving : (headOf s h).state = .serving) (idle : (headOf s h).testPending = false) :
    testHead index s = taken .done (setHead h { headOf s h with testPending := true } s) := by
  unfold testHead; rw [indexOf_some named]; dsimp only
  rw [if_neg (not_not.mpr serving), idle, if_neg Bool.false_ne_true]

theorem restoreHead_wrongMode (other : (headOf s h).state ≠ .failed) : restoreHead index s = refuse .wrongMode s := by
  unfold restoreHead; rw [indexOf_some named]; exact if_pos other

theorem restoreHead_taken (failed : (headOf s h).state = .failed) :
    restoreHead index s = taken .done (restoreRecord h s) := by
  unfold restoreHead; rw [indexOf_some named]; exact if_neg (not_not.mpr failed)

end Named

/-- A FAILED head returns to JOINING as one update of it (R128). -/
theorem restoreRecord_eq (h : HeadId) :
    restoreRecord h s
      = dropDisplay h (atHead h
          { joiningRecord (headOf s h).abilities (headOf s h) with faultCount := 0, lastReject := none } s.queue
          (testNotices s h) s) := by
  have joined : enterJoining h (headOf s h).abilities s
      = dropDisplay h (atHead h (joiningRecord (headOf s h).abilities (headOf s h)) s.queue (testNotices s h) s) := by
    unfold enterJoining
    rw [endTest_atHead_self, setHead_atHead]
  unfold restoreRecord
  rw [joined]; dsimp only
  rw [headOf_dropDisplay_atHead]
  exact congrArg (dropDisplay h) (setHead_atHead _ _ _ _)

/-! ## RESTART BUS -/

/-- RESTART BUS is taken in SETUP and GUARD, by a controller in SOLO or DUTY (R115). -/
def mayRestart (s : State) : Prop :=
  (s.mode = .setup ∨ s.mode = .guard) ∧ (s.pair.state = .solo ∨ s.pair.state = .duty)

theorem restartBus_refused (may : ¬mayRestart s) : restartBus s = refuse .wrongMode s := if_neg may

theorem restartBus_taken (may : mayRestart s) :
    restartBus s
      = taken .done { headless s with bus := { s.bus with nextBeat := 0, releaseAll := true, contention := true } } := by
  have cleared : restartBus s = taken .done (clearBus s) := if_pos may
  rw [cleared, clearBus, releaseHeads_eq]; rfl

end Requests

end Sys2Proof.Machine

namespace Sys2Proof.Proofs
open Sys2Proof Sys2Proof.Machine

/-- Settles O47: the checks of TEST HEAD and RESTORE HEAD in their order, and RESTART BUS with every head released. -/
theorem headAndBusRequests : Obligations.HeadAndBusRequests := by
  refine ⟨fun tag index s hr => ⟨fun out => ?_, fun h named => ?_⟩, fun tag s hr => ⟨fun may => ?_, fun may => ?_⟩⟩
  · exact ⟨refuses_by rfl (exec_testHead tag index s) hr (testHead_badIndex out),
      refuses_by rfl (exec_restoreHead tag index s) hr (restoreHead_badIndex out)⟩
  · have test := exec_testHead tag index s
    have restore := exec_restoreHead tag index s
    refine ⟨fun other => ?_, fun serving pending => ?_, fun serving idle => ?_, fun other => ?_, fun failed => ?_⟩
    · exact refuses_by rfl test hr (testHead_wrongMode (s := begun s) named other)
    · exact refuses_by rfl test hr (testHead_busy (s := begun s) named serving pending)
    · exact serves_by rfl test hr (testHead_taken (s := begun s) named serving idle) rfl (by simp [taken]) rfl fun _ => rfl
    · exact refuses_by rfl restore hr (restoreHead_wrongMode (s := begun s) named other)
    · have act := (restoreHead_taken (s := begun s) named failed).trans (congrArg (taken .done) (restoreRecord_eq h))
      exact serves_by rfl restore hr act rfl (by simp [taken]) rfl fun _ => rfl
  · exact refuses_by rfl (exec_restartBus tag s) hr (restartBus_refused (s := begun s) may)
  · exact serves_by rfl (exec_restartBus tag s) hr (restartBus_taken (s := begun s) may) rfl (by simp [taken]) rfl
      fun _ => rfl

end Sys2Proof.Proofs
end

section
/-! Observed broadcasts: what an observer takes from BEAT, RELEASE ALL and INVITE, and the frames that it does not take
(R91, R102, R137, R143). -/

namespace Sys2Proof.Machine

/-- A plan depends on the head records, the release-all mark and PAIR_EN alone (R102). -/
theorem buildPlan_congr {s t : State} (heads : t.heads = s.heads) (mark : t.bus.releaseAll = s.bus.releaseAll)
    (enabled : t.pair.enabled = s.pair.enabled) : buildPlan t = buildPlan s := by
  have same : inServiceHeads t = inServiceHeads s := by unfold inServiceHeads headOf; rw [heads]
  unfold buildPlan
  rw [same, mark, enabled]

theorem partnerFrame_enabled (s : State) : (partnerFrame s).pair.enabled = s.pair.enabled := by
  unfold partnerFrame; split <;> rfl

/-- The frame timing, plan and beat that an observed broadcast gives (R143). -/
def aligned (beat : Byte) (s : State) : State :=
  { partnerFrame s with
    queue := clearHeld s.queue
    bus := { s.bus with frame := some ⟨s.now, 0⟩, plan := some (buildPlan s), beat := beat, nextBeat := beat + 1 } }

theorem alignFrame_observePartner (beat : Byte) (s : State) : alignFrame beat (observePartner s) = aligned beat s := by
  have enabled := partnerFrame_enabled s
  obtain ⟨p, l, moved⟩ := partnerFrame_moves s
  rw [moved] at enabled
  have plan : buildPlan { s with
      pair := p, link := l, queue := clearHeld s.queue, bus := { s.bus with frame := timingNow s } } = buildPlan s :=
    buildPlan_congr rfl rfl enabled
  unfold aligned
  rw [observePartner_eq, moved, ← plan]; rfl

/-- A broadcast frame at an observer is taken after what any partner frame does (R137, R143). -/
theorem observeBroadcast_taken {s : State} {c : BusCommand} (on : observes s = true) (w : Window)
    (short : ∀ g n b steps, c = .script g n b steps → steps.length ≤ 12) :
    observeBroadcast (commandFrame 0 c) w s = takeBroadcast c w (observePartner s) := by
  unfold observeBroadcast
  rw [on, isPartnerFrame_commandFrame, Bool.and_self, if_pos rfl, commandOf_commandFrame _ short]; rfl

/-- A frame without its CRC is no partner frame (R137, R175). -/
theorem isPartnerFrame_badCrc {f : BusFrame} (bad : f.crc ≠ crc16 (f.address :: f.kind :: f.payload)) :
    isPartnerFrame f = false := by
  have crc : crcOk f = false := beq_eq_false_iff_ne.mpr bad
  unfold isPartnerFrame
  rw [crc, Bool.and_false]

theorem observes_driving {s : State} (drives : s.pair.state = .solo ∨ s.pair.state = .duty ∨ s.pair.state = .yielding) :
    observes s = false := by
  unfold observes
  rcases drives with e | e | e <;> rw [e] <;> rfl

/-- A frame that is no partner frame, or at a controller that drives the bus, is not taken (R137). -/
theorem observe_untaken {s : State} {f : BusFrame} (w : Window) (untaken : (observes s && isPartnerFrame f) = false) :
    observeBroadcast f w s = s ∧ observeTransaction f w s = s := by
  unfold observeBroadcast observeTransaction
  rw [untaken]
  exact ⟨if_neg Bool.false_ne_true, if_neg Bool.false_ne_true⟩

/-- An observed BEAT (R91, R143). -/
theorem observeBroadcast_beat {s : State} (on : observes s = true) (beat mark : Byte) (w : Window) :
    observeBroadcast (commandFrame 0 (.beat beat mark)) w s = eachHears hearBeat ⟨beat, mark == 1⟩ (aligned beat s) := by
  rw [observeBroadcast_taken (c := .beat beat mark) on w nofun, takeBroadcast, alignFrame_observePartner]

/-- An observed RELEASE ALL, whose plan is built before the records are emptied (R143, log 23). -/
theorem observeBroadcast_releaseAll {s : State} (on : observes s = true) (beat mark : Byte) (w : Window) :
    observeBroadcast (commandFrame 0 (.releaseAll beat mark)) w s
      = eachHears hearRelease ⟨beat, mark == 1⟩ (headless (aligned beat s)) := by
  rw [observeBroadcast_taken (c := .releaseAll beat mark) on w nofun, takeBroadcast, alignFrame_observePartner,
    releaseHeads_eq]

/-- What an observed RELEASE ALL leaves, with the TEST notices of the pending tests (R143, log 20). -/
theorem releaseAll_leaves (s : State) (beat : Byte) (heard : Heard) :
    (eachHears hearRelease heard (headless (aligned beat s))).link
        = offerAll (pendingTests (List.finRange 64) s) (partnerFrame s).link
      ∧ { eachHears hearRelease heard (headless (aligned beat s)) with link := (partnerFrame s).link }
        = { partnerFrame s with
            heads := ⟨Vector.replicate 64 Head.reset, [], none⟩
            selector := { s.selector with desired := Vector.replicate 64 none }
            queue := []
            bus := { s.bus with frame := some ⟨s.now, 0⟩, plan := some (buildPlan s), beat := beat, nextBeat := beat + 1 }
            devices := s.devices.map (hearRelease heard), heard := some heard } := by
  have tests : pendingTests (List.finRange 64) (aligned beat s) = pendingTests (List.finRange 64) s := by
    unfold pendingTests
    rw [← headOf_partnerFrame s]; rfl
  refine ⟨congrArg (fun ns => offerAll ns (partnerFrame s).link) tests, ?_⟩
  unfold eachHears eachHead headless aligned
  obtain ⟨p, l, moved⟩ := partnerFrame_moves s
  rw [moved]

/-- An observed INVITE ends as the bus owner's own does (R119 to R121, R143). -/
theorem observeBroadcast_invite {s : State} (on : observes s = true) (idle : s.bus.inFlight = none) (x : Bool)
    (w : Window) : observeBroadcast (commandFrame 0 (.invite x)) w s
      = completeTransaction w
        { partnerFrame s with
          bus := { s.bus with frame := timingNow s, inFlight := some ⟨1, .enrol, 0, none, .invite x⟩ } } := by
  have free : ({ s.bus with frame := timingNow s, inFlight := none } : Bus) = { s.bus with frame := timingNow s } := by
    rw [← idle]
  rw [observeBroadcast_taken (c := .invite x) on w nofun, observePartner_eq, ← free]; rfl

end Sys2Proof.Machine

namespace Sys2Proof.Proofs
open Sys2Proof Sys2Proof.Machine

/-- Settles O52: each broadcast in one equation on the part that a partner frame leaves. -/
theorem observedBroadcasts : Obligations.ObservedBroadcasts := by
  refine ⟨fun s beat mark w => ⟨fun observers => ?_, fun f untaken => ?_⟩, fun s x w observers idle => ?_⟩
  · have on := (observes_iff s).mpr observers
    have devices : (partnerFrame s).devices = s.devices := by
      obtain ⟨p, l, moved⟩ := partnerFrame_moves s
      rw [moved]
    refine ⟨?_, _, exec_observedBroadcast .., ?_⟩
    · rw [exec_observedBroadcast, observeBroadcast_beat on, ← devices]; rfl
    · rw [observeBroadcast_releaseAll on]
      exact releaseAll_leaves s beat ⟨beat, mark == 1⟩
  · have out : (observes s && isPartnerFrame f) = false := by
      rcases untaken with bad | drives
      · rw [isPartnerFrame_badCrc bad, Bool.and_false]
      · rw [observes_driving drives, Bool.false_and]
    obtain ⟨broadcast, transaction⟩ := observe_untaken w out
    exact ⟨congrArg Host.Outcome.next broadcast, congrArg Host.Outcome.next transaction⟩
  · have on := (observes_iff s).mpr observers
    exact congrArg Host.Outcome.next (observeBroadcast_invite on idle x w)

end Sys2Proof.Proofs
end

section
/-! The end of an INVITE: what becomes of the announcement in its window, by the abilities, the placement of its serial and
the state of its record (R105, R119 to R121, Table 7.3). -/

namespace Sys2Proof.Machine

/-! ## The window of an INVITE (R105) -/

theorem headAnnounced_frame (serial : Serial) (s : State) : ∃ dv, headAnnounced serial s = { s with devices := dv } := by
  unfold headAnnounced; split <;> exact ⟨_, rfl⟩

theorem completeTransaction_invite {s : State} {tr : Transaction} {x : Bool} (flight : s.bus.inFlight = some tr)
    (invite : tr.command = .invite x) (w : Window) :
    completeTransaction w s
      = enrolOutcome (classify tr.address tr.command w) { s with bus := { s.bus with inFlight := none } } := by
  unfold completeTransaction handOutcome
  rw [flight]; dsimp only
  rw [invite]

/-- The part with its INVITE over, the contention flag as the class of the window gives it, and the heads on the bus as
given (R105). -/
def invited (w : WindowClass) (dv : List Device) (s : State) : State :=
  { s with bus := { s.bus with inFlight := none, contention := decide (w = .garbled) }, devices := dv }

/-- A window without an announcement settles the contention flag alone. -/
theorem enrolOutcome_quiet {w : WindowClass} (quiet : ∀ serial a, w ≠ .valid (.announcement serial a)) (s : State) :
    enrolOutcome w { s with bus := { s.bus with inFlight := none } } = invited w s.devices s := by
  unfold enrolOutcome; split
  · next serial a => exact absurd rfl (quiet serial a)
  · rfl

/-- An announcement goes to the head manager, and of the rest the heads on the bus alone have moved. -/
theorem enrolOutcome_announces {w : WindowClass} {serial : Serial} {a : Abilities}
    (announces : w = .valid (.announcement serial a)) (s : State) :
    ∃ dv, enrolOutcome w { s with bus := { s.bus with inFlight := none } } = announce serial a (invited w dv s) := by
  subst announces
  obtain ⟨dv, heard⟩ := headAnnounced_frame serial (invited (.valid (.announcement serial a)) s.devices s)
  exact ⟨dv, congrArg (announce serial a) heard⟩

/-! ## The placement that holds a serial (R9, R119) -/

section Announcement
variable {s : State} {serial : Serial} {a : Abilities} {h : HeadId}

/-- No defined placement holds the serial (R121). -/
def Unplaced (s : State) (serial : Serial) : Prop :=
  ∀ h, (placementOf s h).defined = true → (placementOf s h).serial ≠ serial

/-- The defined placement of lowest index that holds the serial (R119). -/
def Holds (s : State) (serial : Serial) (h : HeadId) : Prop :=
  (placementOf s h).defined = true ∧ (placementOf s h).serial = serial
    ∧ ∀ k, k < h → (placementOf s k).defined = true → (placementOf s k).serial ≠ serial

theorem placementWith_none (unplaced : Unplaced s serial) : placementWith s serial = none :=
  firstIndex_none.mpr fun h => by simpa using unplaced h

theorem placementWith_some (holds : Holds s serial h) : placementWith s serial = some h := by
  obtain ⟨placed, own, first⟩ := holds
  exact firstIndex_eq_some (by simp [placed, own]) fun k lower => by simpa using first k lower

/-! ## Enrol faults (R119) -/

/-- Abilities that R119 takes: protocol level 2 or 3, and a script capacity of 8 to 64. -/
def InRange (a : Abilities) : Prop := (a.level = 2 ∨ a.level = 3) ∧ 8 ≤ a.capacity.toNat ∧ a.capacity.toNat ≤ 64

theorem enrolFault_iff : enrolFault a = true ↔ ¬InRange a := by
  simp [enrolFault, InRange, imp_iff_not_or]

theorem announce_faulty (bad : ¬InRange a) : announce serial a s = enrolFaulty serial a s :=
  if_pos (enrolFault_iff.mpr bad)

theorem announce_accepted (good : InRange a) : announce serial a s = acceptedAnnouncement serial a s :=
  if_neg fun bad => enrolFault_iff.mp bad good

theorem enrolFaulty_again (noted : s.heads.lastFaulty = some serial) : enrolFaulty serial a s = s := if_pos noted

theorem enrolFaulty_new (new : s.heads.lastFaulty ≠ some serial) :
    enrolFaulty serial a s
      = { s with
          heads := { s.heads with lastFaulty := some serial }, link := offerLink (enrolNotice s serial a) s.link } :=
  if_neg new

theorem enrolNotice_unplaced (unplaced : Unplaced s serial) :
    enrolNotice s serial a = .head none serial none none .enrolFault 0 none (some a) := by
  unfold enrolNotice; rw [placementWith_none unplaced]

theorem enrolNotice_placed (holds : Holds s serial h) :
    enrolNotice s serial a
      = .head (some h) serial (some (headOf s h).state) (some (headOf s h).state) .enrolFault (headOf s h).faultCount
          (headOf s h).lastReject (some a) := by
  unfold enrolNotice; rw [placementWith_some holds]

/-! ## Strangers (R121) -/

theorem accepted_unplaced (unplaced : Unplaced s serial) : acceptedAnnouncement serial a s = strangerHeard serial a s := by
  unfold acceptedAnnouncement; rw [placementWith_none unplaced]

theorem strangerHeard_known (known : ∃ y ∈ s.heads.strangers, y.serial = serial) :
    strangerHeard serial a s
      = { s with
          heads :=
            { s.heads with
              strangers := s.heads.strangers.map fun y => if y.serial = serial then { y with abilities := a } else y } } :=
  if_pos (by simpa using known)

/-- The stranger list with a new entry at its end, for which the oldest entry of a full list has made room (R121). -/
def strangersWith (x : Stranger) (l : List Stranger) : List Stranger := (if 8 ≤ l.length then l.drop 1 else l) ++ [x]

theorem strangerHeard_new (new : ¬∃ y ∈ s.heads.strangers, y.serial = serial) :
    strangerHeard serial a s
      = { s with
          heads := { s.heads with strangers := strangersWith ⟨serial, a⟩ s.heads.strangers }
          link :=
            offerLink
              (.stranger serial a (strangersWith ⟨serial, a⟩ s.heads.strangers).length (8 ≤ s.heads.strangers.length))
              s.link } :=
  if_neg (by simpa using new)

/-! ## Placed serials (R120) -/

theorem accepted_disabled (holds : Holds s serial h) (disabled : (placementOf s h).enabled = false) :
    acceptedAnnouncement serial a s = s := by
  unfold acceptedAnnouncement; rw [placementWith_some holds]; dsimp only
  rw [disabled, if_neg Bool.false_ne_true]

section Enabled
variable (holds : Holds s serial h) (enabled : (placementOf s h).enabled = true)
include holds enabled

theorem accepted_joining (joining : (headOf s h).state = .joining) :
    acceptedAnnouncement serial a s = setHead h { headOf s h with abilities := some a } s := by
  unfold acceptedAnnouncement; rw [placementWith_some holds]; dsimp only
  rw [if_pos enabled, joining]

theorem accepted_failed (failed : (headOf s h).state = .failed) :
    acceptedAnnouncement serial a s = failedAnnounces h a s := by
  unfold acceptedAnnouncement; rw [placementWith_some holds]; dsimp only
  rw [if_pos enabled, failed]

theorem accepted_joins (notJoining : (headOf s h).state ≠ .joining) (notFailed : (headOf s h).state ≠ .failed) :
    acceptedAnnouncement serial a s = enterJoining h (some a) s := by
  unfold acceptedAnnouncement; rw [placementWith_some holds]; dsimp only
  rw [if_pos enabled]
  split
  · next e => exact absurd e notJoining
  · next e => exact absurd e notFailed
  · rfl

end Enabled

/-- The record of a FAILED head whose serial has announced (R120). -/
def announcedRecord (a : Abilities) (r : Head) : Head := { r with abilities := some a, announced := true }

/-- A FAILED head's announcement is noted on its record, with a HEAD notice the first time (R120). -/
theorem failedAnnounces_eq :
    failedAnnounces h a s
      = { setHead h (announcedRecord a (headOf s h)) s with
          link :=
            if (headOf s h).announced then s.link
            else
              offerLink
                (.head (some h) (placementOf s h).serial (some .failed) (some .failed) .announcedWhileFailed
                  (headOf s h).faultCount (headOf s h).lastReject none)
                s.link } := by
  unfold failedAnnounces; dsimp only; split
  · rfl
  · unfold headNotice; rw [headOf_setHead_same]; rfl

/-- Entry into JOINING as one update of the head (R118). -/
theorem enterJoining_eq (ab : Option Abilities) :
    enterJoining h ab s
      = dropDisplay h (atHead h (joiningRecord ab (headOf s h)) s.queue (testNotices s h) s) := by
  unfold enterJoining
  rw [endTest_atHead_self, setHead_atHead]

theorem offerAll_testNotices (l : Link) :
    offerAll (testNotices s h) l = if (headOf s h).testPending then offerLink (.test h none) l else l := by
  unfold testNotices; split <;> rfl

end Announcement

end Sys2Proof.Machine

namespace Sys2Proof.Proofs
open Sys2Proof Sys2Proof.Machine

/-- Settles O45: the window of the INVITE goes to the head manager, which takes an announcement by its abilities, its
placement and the state of its record, one equation each. -/
theorem inviteOutcome : Obligations.InviteOutcome := by
  intro s tr x w flight invite
  dsimp only
  have run := completeTransaction_invite flight invite w
  generalize classify tr.address tr.command w = c at run ⊢
  refine ⟨fun quiet => ?_, fun serial a announces => ?_⟩
  · rw [exec_transactionComplete, run, enrolOutcome_quiet quiet]; rfl
  · obtain ⟨dv, outcome⟩ := enrolOutcome_announces announces s
    let u := invited c dv s
    rw [outcome] at run
    refine ⟨announce serial a u, (exec_transactionComplete w s).trans (congrArg _ run), fun bad noted => ?_,
      fun bad new => ?_, fun good unplaced => ?_, fun h good holds => ⟨fun disabled => ?_, fun enabled => ?_⟩⟩
    · rw [announce_faulty bad, enrolFaulty_again (s := u) noted]; exact ⟨rfl, rfl⟩
    · rw [announce_faulty bad, enrolFaulty_new (s := u) new]
      exact ⟨rfl, fun unplaced => congrArg (offerLink · s.link) (enrolNotice_unplaced (s := u) unplaced),
        fun h holds => congrArg (offerLink · s.link) (enrolNotice_placed (s := u) holds)⟩
    · rw [announce_accepted (not_not.mp good), accepted_unplaced (s := u) unplaced]
      refine ⟨fun known => ?_, fun new => ?_⟩
      · rw [strangerHeard_known (s := u) known]; exact ⟨rfl, rfl⟩
      · rw [strangerHeard_new (s := u) new]; exact ⟨rfl, rfl⟩
    · rw [announce_accepted (not_not.mp good), accepted_disabled (s := u) holds disabled]; exact ⟨rfl, rfl⟩
    · rw [announce_accepted (not_not.mp good)]
      refine ⟨fun joining => ?_, fun failed => ?_, fun notJoining notFailed => ?_⟩
      · rw [accepted_joining (s := u) holds enabled joining]; exact ⟨rfl, rfl⟩
      · have own : (placementOf u h).serial = serial := holds.2.1
        rw [accepted_failed (s := u) holds enabled failed, failedAnnounces_eq, own]; exact ⟨rfl, rfl⟩
      · rw [accepted_joins (s := u) holds enabled notJoining notFailed, enterJoining_eq]
        exact ⟨offerAll_testNotices (s := u) s.link, rfl⟩

end Sys2Proof.Proofs
end

section
/-! The class of a reply window: which frames each command admits as its reply (R100, R173, Table 11.5). -/

namespace Sys2Proof.Machine

/-! ## Frames -/

/-- A frame's bytes, and no others, are read as the frame (R173). -/
theorem ofBytes_eq_some {bytes : List Byte} {f : BusFrame} : BusFrame.ofBytes bytes = some f ↔ bytes = f.bytes :=
  ⟨fun read => (BusFrame.bytes_of_ofBytes read).symm, fun same => same ▸ f.ofBytes_bytes⟩

section Frame
variable {address : Byte} {c : BusCommand} {f : BusFrame}

theorem crcOk_iff : crcOk f = true ↔ f.crc = crc16 (f.address :: f.kind :: f.payload) := beq_iff_eq

/-- A frame with a wrong CRC or another address is no reply (R100). -/
theorem classify_foreign (foreign : f.crc ≠ crc16 (f.address :: f.kind :: f.payload) ∨ f.address ≠ address) :
    classify address c (.frame f) = .garbled := by
  refine if_neg ?_
  rintro ⟨crc, own⟩
  exact foreign.elim (fun bad => bad (crcOk_iff.mp crc)) (fun other => other own)

section Own
variable (crc : f.crc = crc16 (f.address :: f.kind :: f.payload)) (own : f.address = address)
include crc own

theorem classify_reply {r : Reply} (reply : replyOf c f = some r) : classify address c (.frame f) = .valid r := by
  unfold classify; dsimp only
  rw [if_pos ⟨crcOk_iff.mpr crc, own⟩, reply]

theorem classify_noReply (none : replyOf c f = none) : classify address c (.frame f) = .garbled := by
  unfold classify; dsimp only
  rw [if_pos ⟨crcOk_iff.mpr crc, own⟩, none]

/-- The window is valid with the frame's reply, and garbled where it is none (R100). -/
theorem classify_valid_iff {r : Reply} : classify address c (.frame f) = .valid r ↔ replyOf c f = some r := by
  cases reply : replyOf c f with
  | none => simp [classify_noReply crc own reply]
  | some r' => simp [classify_reply crc own reply]

theorem classify_garbled (invalid : ∀ r, classify address c (.frame f) ≠ .valid r) :
    classify address c (.frame f) = .garbled := by
  cases reply : replyOf c f with
  | none => exact classify_noReply crc own reply
  | some r => exact absurd (classify_reply crc own reply) (invalid r)

end Own

/-! ## Replies to each command (Table 11.5) -/

/-- The commands that an ACK of no bytes answers. -/
def AckedBare (c : BusCommand) : Prop := (∃ serial, c = .assign serial) ∨ ∃ g n b steps, c = .script g n b steps

/-- The commands that an ACK with the head's status answers (R112). -/
def AckedWithStatus (c : BusCommand) : Prop :=
  c = .poll ∨ c = .test ∨ (∃ d, c = .display d) ∨ ∃ s a g d, c = .resync s a g d

/-- The commands to heads are those that an ACK answers. -/
theorem addressed_iff : 0x10 ≤ commandKind c ↔ AckedBare c ∨ AckedWithStatus c := by
  cases c <;> simp [commandKind, AckedBare, AckedWithStatus]

/-- The reasons that have a code, and OTHER for the rest (Table 6.5, log 16). -/
theorem rejectOf_eq (reason : Byte) :
    rejectOf reason
      = if reason = 0 then .format else if reason = 1 then .scriptMissing else if reason = 2 then .noRoom else .other := by
  unfold rejectOf
  split
  · next e => rw [BitVec.eq_of_toNat_eq (y := (0 : Byte)) e]; rfl
  · next e => rw [BitVec.eq_of_toNat_eq (y := (1 : Byte)) e]; rfl
  · next e => rw [BitVec.eq_of_toNat_eq (y := (2 : Byte)) e]; rfl
  · next n0 n1 n2 =>
    rw [if_neg (fun e => n0 (congrArg BitVec.toNat e)), if_neg (fun e => n1 (congrArg BitVec.toNat e)),
      if_neg (fun e => n2 (congrArg BitVec.toNat e))]

theorem replyOf_announcement {x : Bool} {s3 s2 s1 s0 level arrows capacity : Byte} (kind : f.kind = 0x83)
    (payload : f.payload = [s3, s2, s1, s0, level, arrows, capacity]) :
    replyOf (.invite x) f = some (.announcement (s3 ++ s2 ++ s1 ++ s0) ⟨level, arrows, capacity⟩) := by
  unfold replyOf; rw [kind, payload]; rfl

theorem replyOf_partner {d : Half} {m b dh dl m' p : Byte} (kind : f.kind = 0x84) (payload : f.payload = [dh, dl, m', p]) :
    replyOf (.query d m b) f = some (.partner (dh ++ dl) m' p) := by
  unfold replyOf; rw [kind, payload]; rfl

/-- A command that an ACK without status answers is answered as ASSIGN is. -/
theorem replyOf_bare (bare : AckedBare c) : replyOf c f = replyOf (.assign 0) f := by
  rcases bare with ⟨serial, rfl⟩ | ⟨g, n, b, steps, rfl⟩ <;> rfl

/-- A command that an ACK with the head's status answers is answered as POLL is. -/
theorem replyOf_status (status : AckedWithStatus c) : replyOf c f = replyOf .poll f := by
  rcases status with rfl | rfl | ⟨d, rfl⟩ | ⟨s, a, g, d, rfl⟩ <;> rfl

theorem replyOf_addressed (addressed : 0x10 ≤ commandKind c) :
    replyOf c f = replyOf (.assign 0) f ∨ replyOf c f = replyOf .poll f :=
  (addressed_iff.mp addressed).imp replyOf_bare replyOf_status

theorem replyOf_ack (bare : AckedBare c) (kind : f.kind = 0x80) (payload : f.payload = []) : replyOf c f = some .ack := by
  rw [replyOf_bare bare]; unfold replyOf; rw [kind, payload]; rfl

theorem replyOf_ackStatus {first arrows g : Byte} (status : AckedWithStatus c) (kind : f.kind = 0x80)
    (payload : f.payload = [first, arrows, g]) : replyOf c f = some (.ackStatus (ackStatusOf first arrows g)) := by
  rw [replyOf_status status]; unfold replyOf; rw [kind, payload]; rfl

theorem replyOf_wait (addressed : 0x10 ≤ commandKind c) (kind : f.kind = 0x81) (payload : f.payload = []) :
    replyOf c f = some .wait := by
  rcases replyOf_addressed (f := f) addressed with same | same <;>
    (rw [same]; unfold replyOf; rw [kind, payload]; rfl)

theorem replyOf_reject {reason : Byte} (addressed : 0x10 ≤ commandKind c) (kind : f.kind = 0x82)
    (payload : f.payload = [reason]) : replyOf c f = some (.reject (rejectOf reason)) := by
  rcases replyOf_addressed (f := f) addressed with same | same <;>
    (rw [same]; unfold replyOf; rw [kind, payload]; rfl)

/-! ## Frames that are no reply -/

set_option smartUnfolding false in
/-- No other kind of frame answers a command to a head. The match on kind and payload tests the kind against one code after
another; `split` does not get through its alternatives, so each failing test is given here. -/
theorem replyOf_otherKind (addressed : 0x10 ≤ commandKind c) (ack : f.kind ≠ 0x80) (wait : f.kind ≠ 0x81)
    (reject : f.kind ≠ 0x82) : replyOf c f = none := by
  have differs {k : Byte} (other : f.kind ≠ k) : f.kind.toNat ≠ k.toNat := fun same => other (BitVec.eq_of_toNat_eq same)
  rcases replyOf_addressed (f := f) addressed with same | same <;>
  · rw [same]; unfold replyOf; dsimp only
    exact (dif_neg (differs ack)).trans ((dif_neg (differs wait)).trans (dif_neg (differs reject)))

section Length
variable {r : Reply}

theorem length_of_ack (kind : f.kind = 0x80) (reply : replyOf (.assign 0) f = some r) : f.payload.length = 0 := by
  obtain ⟨a, k, payload, crc⟩ := f
  cases kind
  rcases payload with _ | ⟨b0, rest⟩
  · rfl
  · cases reply

theorem length_of_ackStatus (kind : f.kind = 0x80) (reply : replyOf .poll f = some r) : f.payload.length = 3 := by
  obtain ⟨a, k, payload, crc⟩ := f
  cases kind
  rcases payload with _ | ⟨b0, _ | ⟨b1, _ | ⟨b2, _ | ⟨b3, rest⟩⟩⟩⟩
  case cons.cons.cons.nil => rfl
  all_goals cases reply

theorem length_of_wait (addressed : 0x10 ≤ commandKind c) (kind : f.kind = 0x81) (reply : replyOf c f = some r) :
    f.payload.length = 0 := by
  obtain ⟨a, k, payload, crc⟩ := f
  cases kind
  rcases payload with _ | ⟨b0, rest⟩
  · rfl
  · rcases replyOf_addressed addressed with same | same <;> (rw [same] at reply; cases reply)

theorem length_of_reject (addressed : 0x10 ≤ commandKind c) (kind : f.kind = 0x82) (reply : replyOf c f = some r) :
    f.payload.length = 1 := by
  obtain ⟨a, k, payload, crc⟩ := f
  cases kind
  rcases payload with _ | ⟨b0, _ | ⟨b1, rest⟩⟩
  case cons.nil => rfl
  all_goals rcases replyOf_addressed addressed with same | same <;> (rw [same] at reply; cases reply)

end Length

/-- The kinds and lengths that a command admits (R100, Table 11.5). -/
def Admitted (c : BusCommand) (f : BusFrame) : Prop :=
  (f.kind = 0x80 ∧ f.payload.length = 0 ∧ AckedBare c)
  ∨ (f.kind = 0x80 ∧ f.payload.length = 3 ∧ AckedWithStatus c)
  ∨ (f.kind = 0x81 ∧ f.payload.length = 0 ∧ 0x10 ≤ commandKind c)
  ∨ (f.kind = 0x82 ∧ f.payload.length = 1 ∧ 0x10 ≤ commandKind c)
  ∨ (f.kind = 0x83 ∧ f.payload.length = 7 ∧ commandKind c = 0x03)
  ∨ (f.kind = 0x84 ∧ f.payload.length = 4 ∧ commandKind c = 0x04)

theorem admitted_of_addressed {r : Reply} (addressed : 0x10 ≤ commandKind c) (reply : replyOf c f = some r) :
    Admitted c f := by
  by_cases ack : f.kind = 0x80
  · rcases addressed_iff.mp addressed with bare | status
    · exact .inl ⟨ack, length_of_ack ack (replyOf_bare bare ▸ reply), bare⟩
    · exact .inr (.inl ⟨ack, length_of_ackStatus ack (replyOf_status status ▸ reply), status⟩)
  by_cases wait : f.kind = 0x81
  · exact .inr (.inr (.inl ⟨wait, length_of_wait addressed wait reply, addressed⟩))
  by_cases reject : f.kind = 0x82
  · exact .inr (.inr (.inr (.inl ⟨reject, length_of_reject addressed reject reply, addressed⟩)))
  · rw [replyOf_otherKind addressed ack wait reject] at reply; cases reply

/-- What is taken as a reply is of a kind and length that the command admits; nothing answers slot 0 (R100, R113). -/
theorem admitted_of_reply {r : Reply} (reply : replyOf c f = some r) : Admitted c f := by
  cases c with
  | beat | releaseAll => cases reply
  | invite x =>
    unfold replyOf at reply; dsimp only at reply; split at reply
    · next kind payload =>
      exact .inr (.inr (.inr (.inr (.inl ⟨BitVec.eq_of_toNat_eq kind, by rw [payload]; rfl, rfl⟩))))
    · cases reply
  | query d m b =>
    unfold replyOf at reply; dsimp only at reply; split at reply
    · next kind payload =>
      exact .inr (.inr (.inr (.inr (.inr ⟨BitVec.eq_of_toNat_eq kind, by rw [payload]; rfl, rfl⟩))))
    · cases reply
  | _ => exact admitted_of_addressed (by simp [commandKind]) reply

end Frame

end Sys2Proof.Machine

namespace Sys2Proof.Proofs
open Sys2Proof Sys2Proof.Machine

/-- Settles O44: a window is valid with the reply that its frame is to the command, and each reply is of a kind and length
that the command admits. -/
theorem windowClasses : Obligations.WindowClasses := by
  intro address c f
  refine ⟨rfl, fun _ => ofBytes_eq_some, rfl, rfl, classify_foreign, fun crc own => ?_⟩
  have valid {r : Reply} : replyOf c f = some r → classify address c (.frame f) = .valid r := classify_reply crc own
  refine ⟨?_, ?_, fun bare kind payload => valid (replyOf_ack bare kind payload),
    fun _ _ _ status kind payload => valid (replyOf_ackStatus status kind payload),
    fun addressed kind payload => valid (replyOf_wait addressed kind payload), fun reason addressed kind payload => ?_,
    classify_garbled crc own, fun r taken => admitted_of_reply ((classify_valid_iff crc own).mp taken)⟩
  · rintro level arrows capacity s3 s2 s1 s0 x rfl kind payload
    exact valid (replyOf_announcement kind payload)
  · rintro dh dl m p m' b' d' rfl kind payload
    exact valid (replyOf_partner kind payload)
  · rw [valid (replyOf_reject addressed kind payload), rejectOf_eq]

end Sys2Proof.Proofs
end

section
/-! The partner exchange and partner frames: what the bus owner and the observer make of the partner query, and of the
counts of lost exchanges and of differing digests (R106, R137 to R139, R143, R146 to R149). -/

namespace Sys2Proof.Machine

variable {s : State}

/-! ## A partner frame at an observer (R137 to R139) -/

theorem partnerFrame_reserve (reserve : s.pair.state = .reserve) :
    partnerFrame s
      = startPairSilence { s with pair := { s.pair with stuck := false, afterYield := false } } := by
  unfold partnerFrame; rw [reserve]

/-- A partner frame withdraws a claim: RESERVE with HOLD released and the claim wait, and the PAIR notice (R139, R149). -/
theorem partnerFrame_claiming (claiming : s.pair.state = .claiming) :
    partnerFrame s
      = { s with
          pair :=
            { s.pair with
              state := .reserve, hold := false, guard := none, stuck := false, silence := some (s.now + claimWait s) }
          link := offerLink (.pair .claimWithdrawn .claiming .reserve s.pair.role s.engine.digest s.pair.report) s.link } := by
  unfold partnerFrame giveUpClaim offerPair
  rw [claiming]; rfl

theorem partnerFrame_isolated (isolated : s.pair.state = .isolated) : partnerFrame s = s := by
  unfold partnerFrame; rw [isolated]

theorem partnerFrame_mismatch (s : State) : (partnerFrame s).pair.mismatch = s.pair.mismatch := by
  unfold partnerFrame; split <;> rfl

/-! ## The mismatch and lost counts (R147, R148) -/

/-- The PAIR notice of a count that has reached its limit, which changes no pair state (R147 to R149). -/
def countNotice (cause : PairCause) (s : State) : Notice :=
  .pair cause s.pair.state s.pair.state s.pair.role s.engine.digest s.pair.report

/-- The mismatch count is 0 after equal digests, and rises to 3 after others; its third rise is reported (R147). -/
theorem compareDigests_eq (d : Half) (s : State) :
    compareDigests d s
      = { s with
          pair := { s.pair with mismatch := if d = s.engine.digest then 0 else min 3 (s.pair.mismatch + 1) }
          link :=
            if d ≠ s.engine.digest ∧ s.pair.mismatch = 2 then offerLink (countNotice .digestMismatch s) s.link
            else s.link } := by
  have third : s.pair.mismatch + 1 = Config.mismatchLimit ↔ s.pair.mismatch = 2 := Nat.succ_inj
  unfold compareDigests
  by_cases same : d = s.engine.digest
  · rw [if_pos same, if_pos same, if_neg fun h => h.1 same]
  · rw [if_neg same, if_neg same]; dsimp only
    by_cases reports : s.pair.mismatch = 2
    · rw [if_pos (third.mpr reports), if_pos ⟨same, reports⟩]; rfl
    · rw [if_neg (mt third.mp reports), if_neg fun h => reports h.2]; rfl

/-- The lost count rises to 10, and its tenth rise is reported (R148). -/
theorem raiseLost_eq (s : State) :
    raiseLost s
      = { s with
          pair := { s.pair with lost := min 10 (s.pair.lost + 1) }
          link := if s.pair.lost = 9 then offerLink (countNotice .partnerLost s) s.link else s.link } := by
  have tenth : s.pair.lost + 1 = Config.lostLimit ↔ s.pair.lost = 9 := Nat.succ_inj
  unfold raiseLost; dsimp only
  by_cases reports : s.pair.lost = 9
  · rw [if_pos (tenth.mpr reports), if_pos reports]; rfl
  · rw [if_neg (mt tenth.mp reports), if_neg reports]; rfl

/-! ## The exchange at the bus owner (R106, R146) -/

theorem completeTransaction_query {tr : Transaction} {d : Half} {m b : Byte} (flight : s.bus.inFlight = some tr)
    (query : tr.command = .query d m b) (w : Window) :
    completeTransaction w s
      = partnerOutcome (classify tr.address tr.command w) { s with bus := { s.bus with inFlight := none } } := by
  unfold completeTransaction handOutcome
  rw [flight]; dsimp only
  rw [query]

theorem partnerOutcome_missed {w : WindowClass} (missed : ∀ d m p, w ≠ .valid (.partner d m p)) (s : State) :
    partnerOutcome w s = missedExchange (raiseLost s) := by
  unfold partnerOutcome; split
  · next d m p => exact absurd rfl (missed d m p)
  · rfl

/-! ## The query at an observer (R143, R146, R147) -/

theorem observeQuery_taken (on : observes s = true) (d : Half) (m b : Byte) :
    observeQuery (commandFrame 126 (.query d m b)) s = takeQuery d m b (observePartner s) := by
  unfold observeQuery
  rw [on, isPartnerFrame_commandFrame, Bool.and_self, if_pos rfl, commandOf_commandFrame 126 (c := .query d m b) nofun]; rfl

theorem observeQuery_untaken {f : BusFrame} (untaken : (observes s && isPartnerFrame f) = false) : observeQuery f s = s := by
  unfold observeQuery
  rw [untaken]; exact if_neg Bool.false_ne_true

/-- A reply is no partner frame (R137, R173). -/
theorem isPartnerFrame_reply {f : BusFrame} (reply : 0x80 ≤ f.kind.toNat) : isPartnerFrame f = false := by
  have kind : isCommandKind f.kind = false := by
    unfold isCommandKind
    rw [Bool.or_eq_false_iff, Bool.and_eq_false_iff, Bool.and_eq_false_iff]
    exact ⟨.inr (decide_eq_false (by omega)), .inr (decide_eq_false (by omega))⟩
  unfold isPartnerFrame
  rw [kind, Bool.false_and]

/-- What an observer's part is after a partner query, from what a partner frame leaves (R146, R147). -/
theorem takeQuery_observePartner (d : Half) (m b : Byte) (s : State) :
    takeQuery d m b (observePartner s)
      = { partnerFrame s with
          bus := { s.bus with frame := timingNow s, beat := b, nextBeat := b + 1 }
          pair :=
            { (partnerFrame s).pair with
              report := some ⟨d, m, 3⟩
              mismatch := if d = s.engine.digest then 0 else min 3 (s.pair.mismatch + 1)
              holdReply :=
                some
                  (sealFrame 126 0x84
                    (halfBytes s.engine.digest ++ [modeCode s.mode, pairStateCode (partnerFrame s).pair.state])).bytes }
          link :=
            if d ≠ s.engine.digest ∧ s.pair.mismatch = 2 then
              offerLink
                (.pair .digestMismatch (partnerFrame s).pair.state (partnerFrame s).pair.state (partnerFrame s).pair.role
                  s.engine.digest (some ⟨d, m, 3⟩))
                (partnerFrame s).link
            else (partnerFrame s).link } := by
  have mismatch := partnerFrame_mismatch s
  obtain ⟨p, l, moved⟩ := partnerFrame_moves s
  rw [moved] at mismatch
  rw [← mismatch, observePartner_eq, moved]
  exact compareDigests_eq ..

end Sys2Proof.Machine

namespace Sys2Proof.Proofs
open Sys2Proof Sys2Proof.Machine

/-- Settles O49: a partner frame by the state it finds, the exchange at the bus owner by its class, and the query at an
observer on the part that a partner frame leaves. -/
theorem partnerExchange : Obligations.PartnerExchange := by
  refine ⟨fun s => ⟨fun reserve => ?_, fun claiming => ?_, partnerFrame_isolated⟩,
    fun s tr digest mode beat w flight query => ?_,
    fun s digest mode beat => ⟨fun observers => ?_, fun drives => ?_, fun f bad => ?_⟩⟩
  · rw [partnerFrame_reserve reserve]; rfl
  · rw [partnerFrame_claiming claiming]; rfl
  · have run := completeTransaction_query flight query w
    dsimp only
    generalize classify tr.address tr.command w = c at run ⊢
    rw [exec_transactionComplete, run]
    refine ⟨?_, fun missed => ?_⟩
    · rintro d m p rfl
      exact congrArg Host.Outcome.next (compareDigests_eq ..)
    · rw [partnerOutcome_missed missed, raiseLost_eq]; rfl
  · have on := (observes_iff s).mpr observers
    rw [exec_partnerQueryObserved, exec_partnerQueryMissed, observeQuery_taken on, takeQuery_observePartner, if_pos on]
    exact ⟨rfl, rfl⟩
  · have off := observes_driving drives
    refine ⟨fun f => congrArg Host.Outcome.next (observeQuery_untaken ?_), ?_⟩
    · rw [off, Bool.false_and]
    · rw [exec_partnerQueryMissed, off, if_neg Bool.false_ne_true]
  · refine congrArg Host.Outcome.next (observeQuery_untaken ?_)
    rw [bad.elim isPartnerFrame_badCrc isPartnerFrame_reply, Bool.and_false]

end Sys2Proof.Proofs
end

section
/-! YIELD and ISOLATE, and the ends of frame and slot that they wait for (R101, R137, R141, R142, R149). -/

namespace Sys2Proof.Machine

variable {s : State}

/-! ## The requests -/

theorem yieldBus_duty (duty : s.pair.state = .duty) :
    yieldBus s = taken .done { s with pair := { s.pair with state := .yielding } } := by
  unfold yieldBus; rw [duty]

theorem yieldBus_unpaired (solo : s.pair.state = .solo) : yieldBus s = refuse .notPaired s := by
  unfold yieldBus; rw [solo]

theorem yieldBus_elsewhere (notDuty : s.pair.state ≠ .duty) (paired : s.pair.state ≠ .solo) :
    yieldBus s = refuse .wrongMode s := by
  unfold yieldBus; split
  · next duty => exact absurd duty notDuty
  · next solo => exact absurd solo paired
  all_goals rfl

theorem isolateUnit_unpaired (solo : s.pair.state = .solo) : isolateUnit s = refuse .notPaired s := by
  unfold isolateUnit; rw [solo]

theorem isolateUnit_isolated (isolated : s.pair.state = .isolated) : isolateUnit s = taken .done s := by
  unfold isolateUnit; rw [isolated]

/-- A controller that drives the bus leaves it at the end of the slot in progress (R142, log 10). -/
theorem isolateUnit_driving (drives : s.pair.state = .duty ∨ s.pair.state = .yielding) :
    isolateUnit s = taken .done { s with pair := { s.pair with isolating := true } } := by
  unfold isolateUnit
  rcases drives with e | e <;> rw [e]

theorem isolateUnit_withdrawn (withdrawn : s.pair.state = .reserve ∨ s.pair.state = .claiming) :
    isolateUnit s = taken .done (enterIsolated s) := by
  unfold isolateUnit
  rcases withdrawn with e | e <;> rw [e]

/-! ## The ends that they wait for -/

/-- The clock is brought up to the end of the frame, where one is running (R100, R141, log 3). -/
theorem reachTime_frameEnd (s : State) :
    reachTime (frameEnd s) s
      = { s with now := match s.bus.frame with | some f => max s.now (f.start + 200) | none => s.now } := by
  unfold reachTime frameEnd
  cases s.bus.frame with
  | some f => rfl
  | none => dsimp only; rw [Nat.max_self]

/-- The end of a yielding frame releases the bus and HOLD, with the silence timer of a controller that has yielded (R137,
R141). -/
theorem endYield_yielding (yielding : s.pair.state = .yielding) :
    endYield s
      = { s with
          pair :=
            { s.pair with
              state := .reserve, hold := false, afterYield := true, silence := some (s.now + 3 * s.timing.takeoverWait) }
          bus := { s.bus with releaseAll := false, line := none }
          link := offerLink (.pair .yielded .yielding .reserve s.pair.role s.engine.digest s.pair.report) s.link } := by
  unfold endYield; rw [yielding]; rfl

theorem exec_yieldingEnd_due {finish : Nat} (clock : reachTime (frameEnd s) s = { s with now := finish })
    (yielding : s.pair.state = .yielding) (stays : s.pair.isolating = false) (idle : s.bus.inFlight = none) :
    exec .yieldingEnd s
      = .next
        { s with
          now := finish
          pair :=
            { s.pair with
              state := .reserve, hold := false, afterYield := true, silence := some (finish + 3 * s.timing.takeoverWait) }
          bus := { s.bus with releaseAll := false, line := none }
          link := offerLink (.pair .yielded .yielding .reserve s.pair.role s.engine.digest s.pair.report) s.link } := by
  have due : s.pair.state = .yielding ∧ (!s.pair.isolating) = true ∧ s.bus.inFlight.isNone = true := by
    rw [stays, idle]; exact ⟨yielding, rfl, rfl⟩
  rw [exec_yieldingEnd, if_pos due, clock]
  exact congrArg Host.Outcome.next (endYield_yielding (s := { s with now := finish }) yielding)

theorem exec_yieldingEnd_early (early : s.pair.state ≠ .yielding ∨ s.pair.isolating = true ∨ s.bus.inFlight.isSome) :
    exec .yieldingEnd s = .next s := by
  rw [exec_yieldingEnd, if_neg]
  rintro ⟨yielding, stays, idle⟩
  rcases early with other | leaves | flight
  · exact other yielding
  · rw [leaves] at stays; cases stays
  · rw [Option.isNone_iff_eq_none.mp idle] at flight; cases flight

theorem exec_isolateSlotEnd_due (leaves : s.pair.isolating = true) (idle : s.bus.inFlight = none) :
    exec .isolateSlotEnd s = .next (enterIsolated s) := by
  rw [exec_isolateSlotEnd, if_pos]
  rw [idle]; exact ⟨leaves, rfl⟩

theorem exec_isolateSlotEnd_early (early : s.pair.isolating = false ∨ s.bus.inFlight.isSome) :
    exec .isolateSlotEnd s = .next s := by
  rw [exec_isolateSlotEnd, if_neg]
  rintro ⟨leaves, idle⟩
  rcases early with stays | flight
  · rw [stays] at leaves; cases leaves
  · rw [Option.isNone_iff_eq_none.mp idle] at flight; cases flight

end Sys2Proof.Machine

namespace Sys2Proof.Proofs
open Sys2Proof Sys2Proof.Machine

/-- Settles O51: YIELD and ISOLATE by the pair state that they find, and the two ends by whether they are due. -/
theorem yieldAndIsolate : Obligations.YieldAndIsolate := by
  refine ⟨fun tag s hr => ?_, fun s => ⟨fun yielding stays idle => ?_, exec_yieldingEnd_early, fun leaves idle => ?_,
    exec_isolateSlotEnd_early⟩⟩
  · have yields := exec_yield tag s
    have isolates := exec_isolate tag s
    refine ⟨fun duty => ?_, fun solo => ⟨?_, ?_⟩, fun notDuty paired => ?_, fun isolated => ?_, fun drives => ?_,
      fun withdrawn => ?_⟩
    · exact serves_by rfl yields hr (yieldBus_duty (s := begun s) duty) rfl (by simp [taken]) rfl fun _ => rfl
    · exact refuses_by rfl yields hr (yieldBus_unpaired (s := begun s) solo)
    · exact refuses_by rfl isolates hr (isolateUnit_unpaired (s := begun s) solo)
    · exact refuses_by rfl yields hr (yieldBus_elsewhere (s := begun s) notDuty paired)
    · exact serves_by rfl isolates hr (isolateUnit_isolated (s := begun s) isolated) rfl (by simp [taken]) rfl fun _ => rfl
    · exact serves_by rfl isolates hr (isolateUnit_driving (s := begun s) drives) rfl (by simp [taken]) rfl fun _ => rfl
    · exact serves_by rfl isolates hr (isolateUnit_withdrawn (s := begun s) withdrawn) rfl (by simp [taken]) rfl fun _ => rfl
  · exact exec_yieldingEnd_due (reachTime_frameEnd s) yielding stays idle
  · rw [exec_isolateSlotEnd_due leaves idle]; rfl

end Sys2Proof.Proofs
end

section
/-! The expiries of the silence timer and of the claim guard: what each makes of the partner's HOLD, from a claim begun to a
claim won, withdrawn or given up (R137 to R140, R149). -/

namespace Sys2Proof.Machine

variable {s : State} {t : Nat} {g : ClaimGuard}

/-! ## The silence timer (R138) -/

theorem silenceEnds_stopped (stopped : s.pair.state ≠ .reserve ∨ s.pair.silence = none) (held : Bool) :
    silenceEnds held s = s := by
  unfold silenceEnds; split
  · next reserve runs =>
    rcases stopped with other | none
    · exact absurd reserve other
    · rw [none] at runs; cases runs
  · rfl

theorem silenceEnds_running (reserve : s.pair.state = .reserve) (runs : s.pair.silence = some t) (held : Bool) :
    silenceEnds held s = if held then partnerStuck (reachTime t s) else startClaim (reachTime t s) := by
  unfold silenceEnds; rw [reserve, runs]

/-- HOLD found asserted restarts the timer, and is reported where the stuck mark was clear (R138, R149). -/
theorem partnerStuck_reserve (reserve : s.pair.state = .reserve) :
    partnerStuck s
      = { s with
          pair := { s.pair with silence := some (s.now + claimWait s), stuck := true }
          link :=
            if s.pair.stuck then s.link
            else offerLink (.pair .partnerStuck .reserve .reserve s.pair.role s.engine.digest s.pair.report) s.link } := by
  have notice : pairNotice s .partnerStuck s.pair.state
      = .pair .partnerStuck .reserve .reserve s.pair.role s.engine.digest s.pair.report := by
    unfold pairNotice; rw [reserve]
  unfold partnerStuck
  by_cases stuck : s.pair.stuck = true
  · rw [if_pos stuck, if_pos stuck, ← stuck]; rfl
  · rw [if_neg stuck, if_neg stuck, ← notice]; rfl

/-! ## The claim guard (R139, R140) -/

theorem guardEnds_stopped (stopped : s.pair.state ≠ .claiming ∨ s.pair.guard = none) (held : Bool) :
    guardEnds held s = s := by
  unfold guardEnds; split
  · next claiming runs =>
    rcases stopped with other | none
    · exact absurd claiming other
    · rw [none] at runs; cases runs
  · rfl

section Running
variable (claiming : s.pair.state = .claiming) (runs : s.pair.guard = some g)
include claiming runs

theorem guardEnds_released : guardEnds false s = enterDuty (reachTime g.expiry s) := by
  unfold guardEnds; rw [claiming, runs]; rfl

theorem guardEnds_second (second : g.second = true) :
    guardEnds true s = giveUpClaim .conflict (reachTime g.expiry s) := by
  unfold guardEnds; rw [claiming, runs]; dsimp only; rw [second]; rfl

theorem guardEnds_first_b (first : g.second = false) (role : s.pair.role = .b) :
    guardEnds true s = giveUpClaim .claimWithdrawn (reachTime g.expiry s) := by
  unfold guardEnds; rw [claiming, runs]; dsimp only; rw [first, reachTime_pair, role]; rfl

theorem guardEnds_first_a (first : g.second = false) (role : s.pair.role = .a) :
    guardEnds true s
      = { s with now := max s.now g.expiry, pair := { s.pair with guard := some ⟨max s.now g.expiry + 20, true⟩ } } := by
  unfold guardEnds; rw [claiming, runs]; dsimp only; rw [first, reachTime_pair, role]; rfl

end Running

/-- A claim won: DUTY with both counts cleared, the PAIR notice, and a frame at once (R140, R149). -/
theorem enterDuty_claiming (claiming : s.pair.state = .claiming) :
    enterDuty s
      = sendBeat s.now
          { s with
            pair := { s.pair with state := .duty, hold := true, guard := none, lost := 0, mismatch := 0 }
            link := offerLink (.pair .takeover .claiming .duty s.pair.role s.engine.digest s.pair.report) s.link } := by
  unfold enterDuty; rw [claiming]; rfl

/-- A claim given up: RESERVE with HOLD released and the claim wait, and the PAIR notice (R139, R149). -/
theorem giveUpClaim_claiming (claiming : s.pair.state = .claiming) (cause : PairCause) :
    giveUpClaim cause s
      = { s with
          pair := { s.pair with state := .reserve, hold := false, guard := none, silence := some (s.now + claimWait s) }
          link := offerLink (.pair cause .claiming .reserve s.pair.role s.engine.digest s.pair.report) s.link } := by
  unfold giveUpClaim; rw [claiming]; rfl

end Sys2Proof.Machine

namespace Sys2Proof.Proofs
open Sys2Proof Sys2Proof.Machine

/-- Settles O50: each expiry by whether its timer runs and by the partner's HOLD, on the part at the expiry time. -/
theorem pairTimersExpire : Obligations.PairTimersExpire := by
  refine ⟨fun s => ⟨fun stopped held => ?_, fun t reserve runs => ⟨?_, ?_⟩⟩,
    fun s => ⟨fun stopped held => ?_, fun g claiming runs => ?_⟩⟩
  · rw [exec_pairSilenceExpiry, silenceEnds_stopped stopped]
  · rw [exec_pairSilenceExpiry, silenceEnds_running reserve runs]; rfl
  · rw [exec_pairSilenceExpiry, silenceEnds_running reserve runs, if_pos rfl,
      partnerStuck_reserve (s := reachTime t s) reserve]
    rfl
  · rw [exec_claimGuardExpiry, guardEnds_stopped stopped]
  · have givenUp := giveUpClaim_claiming (s := reachTime g.expiry s) claiming
    dsimp only
    rw [exec_claimGuardExpiry, exec_claimGuardExpiry]
    refine ⟨?_, fun second => ?_, fun first roleB => ?_, fun first roleA => ?_⟩
    · rw [guardEnds_released claiming runs, enterDuty_claiming (s := reachTime g.expiry s) claiming]; rfl
    · rw [guardEnds_second claiming runs second, givenUp]; rfl
    · rw [guardEnds_first_b claiming runs first roleB, givenUp]; rfl
    · rw [guardEnds_first_a claiming runs first roleA]

end Sys2Proof.Proofs
end

section
/-! The arrows of section 9: what each command makes of the mode (R152 to R155, R158). -/

namespace Sys2Proof.Machine

/-- The arrows between the modes, over a map that is validated or not (R152 to R155, R158); a hard reset stands outside
them. -/
inductive ModeArrow (validated : Bool) : Mode → Mode → Prop
  | stay {m : Mode} : ModeArrow validated m m
  | arm : ModeArrow validated .setup .validating
  | passed : ModeArrow validated .validating .guard
  | alarm : ModeArrow validated .guard .alarm
  | standDown : ModeArrow validated .alarm .guard
  | toSetup {m : Mode} (free : m ≠ .alarm) : ModeArrow validated m .setup
  | restart {m : Mode} (free : m ≠ .alarm) (valid : validated = true) : ModeArrow validated m .guard

/-- The mode of the second state is reached from the first along an arrow. -/
def FollowsArrow (s t : State) : Prop := ModeArrow s.map.validated s.mode t.mode

theorem FollowsArrow.of_same {s t : State} (same : t.mode = s.mode) : FollowsArrow s t := by
  unfold FollowsArrow; rw [same]; exact .stay

theorem FollowsArrow.refl (s : State) : FollowsArrow s s := .of_same rfl

theorem MonitorMove.follows {s t : State} (k : MonitorMove s t) : FollowsArrow s t := .of_same k.resultKept.1

theorem BusMove.follows {s t : State} (k : BusMove s t) : FollowsArrow s t := by
  obtain ⟨⟨m, d, q, l, b, p, dv, hd, n, rfl⟩, -, -⟩ := k
  exact .of_same rfl

theorem MapEdit.follows {s t : State} (k : MapEdit s t) : FollowsArrow s t := .of_same k.resultKept.1

/-- A change of mode ends in the mode that it names, so it follows an arrow where that mode does (R151). -/
theorem FollowsArrow.change {new : Mode} {cause : ModeCause} {outcome : ModeOutcome} {zone : Option ZoneId}
    {act : State → State} {s : State} (h : ∀ u, MonitorMove u (act u)) (arrow : ModeArrow s.map.validated s.mode new)
    (u : State) : FollowsArrow s (changeMode new cause outcome zone act u) := by
  have written : (changeMode new cause outcome zone act u).mode = new :=
    (changeMode_monitor new cause outcome zone h u).resultKept.1
  unfold FollowsArrow; rw [written]; exact arrow

/-! ## The mode controller's commands -/

/-- A validation that ends leads to GUARD or back to SETUP (R17, R18). -/
theorem completeValidation_follows (s : State) : FollowsArrow s (completeValidation s) := by
  unfold completeValidation; split
  · next validating =>
    split
    · exact .change (fun u => (startRun_monitor u).trans (enterGuard_monitor _)) (validating ▸ .passed) _
    · exact .change .refl (.toSetup (by rw [validating]; nofun)) _
  · exact .refl s

theorem autoAlarm_follows (s : State) : FollowsArrow s (autoAlarm s) := by
  unfold autoAlarm; split
  · exact .refl s
  · dsimp only; split
    · next guard => exact .change .refl (guard ▸ .alarm) _
    · exact .of_same rfl

theorem arm_follows (s : State) : FollowsArrow s (arm s).state := by
  unfold arm; split <;> dsimp only [taken, refuse]
  · next setup => exact .change .refl (setup ▸ .arm) _
  · exact .refl s

theorem disarm_follows (s : State) : FollowsArrow s (disarm s).state := by
  unfold disarm; split <;> dsimp only [taken, refuse]
  · next guard => exact .change disarmEngine_monitor (.toSetup (by rw [guard]; nofun)) _
  · next validating => exact .change .refl (.toSetup (by rw [validating]; nofun)) _
  · exact .refl s
  · exact .refl s

theorem alarm_follows (s : State) : FollowsArrow s (alarm s).state := by
  unfold alarm; split <;> dsimp only [taken, refuse]
  · next guard => exact .change .refl (guard ▸ .alarm) _
  · exact .refl s

theorem standDown_follows (s : State) : FollowsArrow s (standDown s).state := by
  unfold standDown; split
  · exact .refl s
  · next alarm =>
    split <;> dsimp only [taken, refuse]
    · exact .refl s
    · exact .change enterGuard_monitor (not_not.mp alarm ▸ .standDown) _

/-- RESTART leads to GUARD over a validated map and to SETUP over another, and never out of ALARM (R158). -/
theorem restart_follows (s : State) : FollowsArrow s (restart s).state := by
  by_cases alarm : s.mode = .alarm
  · rw [restart_refused alarm]; exact .refl s
  · rw [restart_eq s alarm]; dsimp only [taken]
    refine .change restartGuard_monitor ?_ _
    unfold restartMode; split
    · next valid => exact .restart alarm valid
    · exact .toSetup alarm

theorem storeTiming_mode (t : Timing) (s : State) : (storeTiming t s).mode = s.mode := by
  unfold storeTiming; dsimp only; split
  · rfl
  · exact (recomputeAll_monitor _).resultKept.1

theorem setTiming_follows (setting : Byte) (value : Half) (s : State) :
    FollowsArrow s (setTiming setting value s).state := by
  unfold setTiming; split
  · split
    · exact .refl s
    · exact .of_same (storeTiming_mode _ s)
  · exact .refl s

theorem writeBlocked_follows (x : AisleId) (b : Bool) (s : State) : FollowsArrow s (writeBlocked x b s) :=
  .of_same (writeBlocked_monitor x b s).resultKept.1

theorem blockAisle_follows (index : Half) (s : State) : FollowsArrow s (blockAisle index s).state := by
  unfold blockAisle; split
  · exact .refl s
  · exact writeBlocked_follows _ true s

theorem openAisle_follows (index : Half) (s : State) : FollowsArrow s (openAisle index s).state := by
  unfold openAisle; split
  · exact .refl s
  · exact writeBlocked_follows _ false s

/-! ## Every command -/

theorem requestAct_modes_follows {i : Instr} (s : State) (h : ownerOf i = .modes) :
    FollowsArrow s (requestAct i s).state := by
  cases i
  case restart => exact restart_follows s
  case arm => exact arm_follows s
  case disarm => exact disarm_follows s
  case alarm => exact alarm_follows s
  case standDown => exact standDown_follows s
  case setTiming => exact setTiming_follows _ _ s
  case blockAisle => exact blockAisle_follows _ s
  case openAisle => exact openAisle_follows _ s
  case validationComplete | autoAlarmRequest => exact .refl s
  all_goals exact absurd h nofun

theorem requestAct_follows (i : Instr) (s : State) : FollowsArrow s (requestAct i s).state := by
  cases h : ownerOf i with
  | reset => rw [requestAct_reset s h]; exact .refl s
  | modes => exact requestAct_modes_follows s h
  | map =>
    rcases requestAct_map s h with same | ⟨-, edit⟩
    · rw [same]; exact .refl s
    · exact edit.follows
  | bus => exact (requestAct_onBus s h).follows
  | monitors => exact (requestAct_monitors s h).follows

theorem eventOf_modes_follows {c : Instr} (s : State) (h : ownerOf c = .modes) : FollowsArrow s (eventOf c s) := by
  cases c
  case validationComplete => exact completeValidation_follows s
  case autoAlarmRequest => exact autoAlarm_follows s
  case restart | arm | disarm | alarm | standDown | setTiming | blockAisle | openAisle => exact .refl s
  all_goals exact absurd h nofun

/-- An event of the part's own follows an arrow, or is a hard reset, which leads to SETUP from every mode (R157). -/
theorem eventOf_follows (c : Instr) (s : State) :
    FollowsArrow s (eventOf c s)
      ∨ (∃ speed pairEn role, c = .hardReset speed pairEn role) ∧ (eventOf c s).mode = .setup := by
  cases h : ownerOf c with
  | reset =>
    obtain ⟨speed, pairEn, role, rfl⟩ := ownerOf_reset h
    exact .inr ⟨⟨speed, pairEn, role, rfl⟩, rfl⟩
  | modes => exact .inl (eventOf_modes_follows s h)
  | map => rw [eventOf_map s h]; exact .inl (.refl s)
  | bus => exact .inl (eventOf_onBus s h).follows
  | monitors => exact .inl (eventOf_monitors s h).follows

theorem exec_follows {c : Instr} {s t : State} (e : exec c s = .next t) :
    FollowsArrow s t ∨ (∃ speed pairEn role, c = .hardReset speed pairEn role) ∧ t.mode = .setup := by
  cases exec_does e with
  | link l => exact .inl (.of_same rfl)
  | request i l l' => exact .inl (requestAct_follows i { s with link := l })
  | event => exact eventOf_follows c s

/-! ## What an arrow between two modes says -/

section Arrow
variable {v : Bool} {m n : Mode} (arrow : ModeArrow v m n) (moves : n ≠ m)
include arrow moves

theorem ModeArrow.into_validating (into : n = .validating) : m = .setup := by
  cases arrow with
  | stay => exact absurd rfl moves
  | arm => rfl
  | passed | alarm | standDown | toSetup | restart => cases into

theorem ModeArrow.into_alarm (into : n = .alarm) : m = .guard := by
  cases arrow with
  | stay => exact absurd rfl moves
  | alarm => rfl
  | arm | passed | standDown | toSetup | restart => cases into

theorem ModeArrow.out_of_alarm (out : m = .alarm) : n = .guard := by
  cases arrow with
  | stay => exact absurd rfl moves
  | standDown | restart => rfl
  | toSetup free => exact absurd out free
  | arm | passed | alarm => cases out

theorem ModeArrow.setup_to_guard (into : n = .guard) (out : m = .setup) : v = true := by
  cases arrow with
  | stay => exact absurd rfl moves
  | restart _ valid => exact valid
  | passed | standDown => cases out
  | arm | alarm | toSetup => cases into

end Arrow

end Sys2Proof.Machine

namespace Sys2Proof.Proofs
open Sys2Proof Sys2Proof.Machine

/-- Settles O19: every command but a hard reset follows an arrow of section 9, and a hard reset leads to SETUP. -/
theorem modeTransitions : Obligations.ModeTransitions := by
  unfold Obligations.ModeTransitions
  intro c s t e moves
  rcases exec_follows e with arrow | ⟨reset, setup⟩
  · exact ⟨arrow.into_validating moves, arrow.into_alarm moves, fun out => .inl (arrow.out_of_alarm moves out),
      arrow.setup_to_guard moves⟩
  · rw [setup]
    exact ⟨nofun, nofun, fun _ => .inr reset, nofun⟩

end Sys2Proof.Proofs
end

section
/-! What the panel link shows of a command: every operation of the other blocks acts on the link by the notices it offers, in
order, and by nothing else (R167). -/

namespace Sys2Proof.Machine

/-! ## Notices offered one after another -/

/-- The second link is what the first becomes under some notices, offered in order (R167). -/
def Offers (l m : Link) : Prop := ∃ ns, m = offerAll ns l

theorem Offers.refl (l : Link) : Offers l l := ⟨[], rfl⟩

theorem Offers.trans {l m k : Link} (h : Offers l m) (g : Offers m k) : Offers l k := by
  obtain ⟨as, rfl⟩ := h
  obtain ⟨bs, rfl⟩ := g
  exact ⟨as ++ bs, (offerAll_append as bs l).symm⟩

theorem Offers.of_eq {l m : Link} (h : m = l) : Offers l m := h ▸ .refl l

/-- What every offered notice keeps, the notices offered keep. -/
theorem Offers.keeps {P : Link → Prop} {l m : Link} (h : Offers l m) (hl : P l) (offered : ∀ n k, P k → P (offerLink n k)) :
    P m := by
  obtain ⟨ns, rfl⟩ := h
  exact foldl_induct (fun k n => offerLink n k) ns l hl fun k n => offered n k

theorem Offers.forEach {n : Nat} (f : Fin n → State → State) (h : ∀ i s, Offers s.link (f i s).link) (s : State) :
    Offers s.link (forEach n f s).link :=
  forEach_induct (P := fun t => Offers s.link t.link) f s (.refl _) fun i t ht => ht.trans (h i t)

theorem Offers.foldl {β : Type} (f : State → β → State) (h : ∀ s b, Offers s.link (f s b).link) (l : List β) (s : State) :
    Offers s.link (l.foldl f s).link :=
  foldl_induct (P := fun t => Offers s.link t.link) f l s (.refl _) fun t b ht => ht.trans (h t b)

theorem offer_offers (n : Notice) (s : State) : Offers s.link (offer n s).link := ⟨[n], rfl⟩

theorem offerPair_offers (c : PairCause) (before : PairState) (s : State) : Offers s.link (offerPair c before s).link :=
  offer_offers _ s

/-! ## Operations that offer nothing -/

theorem handChange_offers (c : ChangeClass) (s : State) : Offers s.link (handChange c s).link := by
  obtain ⟨g, h⟩ := handChange_frame c s
  rw [h]; exact .refl _

theorem handIf_offers (c : Option ChangeClass) (s : State) : Offers s.link (handIf c s).link := by
  obtain ⟨g, h⟩ := handIf_frame c s
  rw [h]; exact .refl _

theorem requestAlarm_offers (z : ZoneId) (s : State) : Offers s.link (requestAlarm z s).link := by
  obtain ⟨a, h⟩ := requestAlarm_frame z s
  rw [h]; exact .refl _

theorem recomputeAll_offers (s : State) : Offers s.link (recomputeAll s).link := .of_eq (recomputeAll_link s)

theorem refreshHead_offers (h : HeadId) (s : State) : Offers s.link (refreshHead h s).link := by
  obtain ⟨d, q, e⟩ := refreshHead_frame h s
  rw [e]; exact .refl _

theorem endSweep_offers (s : State) : Offers s.link (endSweep s).link := by
  obtain ⟨g, h⟩ := endSweep_frame s
  rw [h]; exact .refl _

theorem endSelection_offers (s : State) : Offers s.link (endSelection s).link := by
  obtain ⟨g, h⟩ := endSelection_frame s
  rw [h]; exact .refl _

/-! ## Exits and the gate scanner -/

theorem reevalExit_offers (hand : Bool) (e : ExitId) (s : State) : Offers s.link (reevalExit hand e s).link := by
  unfold reevalExit; dsimp only; split
  · split
    · exact (offer_offers _ _).trans (handChange_offers _ _)
    · exact offer_offers _ _
  · exact .refl _

theorem reevalExits_offers (hand : Bool) (s : State) : Offers s.link (reevalExits hand s).link :=
  .forEach _ (reevalExit_offers hand) s

theorem acceptMap_offers (s : State) : Offers s.link (acceptMap s).link :=
  reevalExits_offers true { s with map := { s.map with validated := false } }

theorem reevalZoneExits_offers (z : ZoneId) (s : State) : Offers s.link (reevalZoneExits z s).link :=
  .forEach _ (fun e s => by split; exacts [reevalExit_offers true e s, .refl _]) s

theorem takeContact_offers (e : ExitId) (c : ContactState) (s : State) : Offers s.link (takeContact e c s).link :=
  reevalExit_offers true e _

theorem handContact_offers (p : PositionId) (s : State) : Offers s.link (handContact p s).link :=
  .forEach _ (fun e s => by split; exacts [takeContact_offers _ _ s, .refl _]) s

theorem copyContact_offers (e : ExitId) (s : State) : Offers s.link (copyContact e s).link := by
  unfold copyContact; split
  · split
    · exact takeContact_offers _ _ s
    · exact .refl _
  · exact .refl _

theorem gateScan_offers (levels : BitVec 32) (s : State) : Offers s.link (gateScan levels s).link :=
  (Offers.foldl (fun s p => handContact p s) (fun s p => handContact_offers p s) (acceptedOf (scanRuns levels s.scanner))
    { s with scanner := settleScan (scanRuns levels s.scanner) }).trans (.forEach _ copyContact_offers _)

theorem exitOverride_offers (index value : Byte) (s : State) : Offers s.link (exitOverride index value s).state.link := by
  unfold exitOverride; split
  · exact .refl _
  · split
    · exact .refl _
    · split
      · exact .refl _
      · exact reevalExit_offers true _ _

theorem writeBias_offers (e : ExitId) (b : Nat) (s : State) : Offers s.link (writeBias e b s).link := by
  unfold writeBias; dsimp only; split
  · split
    · exact handChange_offers _ _
    · exact .refl _
  · exact .refl _

theorem exitBias_offers (index : Byte) (value : Half) (s : State) : Offers s.link (exitBias index value s).state.link := by
  unfold exitBias; split
  · exact .refl _
  · split
    · exact .refl _
    · exact writeBias_offers _ _ s

/-! ## Zones -/

theorem changeZone_offers (z : ZoneId) (new : ZoneState) (cause : ZoneCause) (s : State) :
    Offers s.link (changeZone z new cause s).link := by
  have moved (n : Notice) (c : Option ChangeClass) (u : State) : Offers u.link (reevalZoneExits z (handIf c (offer n u))).link :=
    (offer_offers n u).trans ((handIf_offers c _).trans (reevalZoneExits_offers z _))
  unfold changeZone; dsimp only; split
  · exact (moved _ _ (setZoneRt z _ s)).trans (requestAlarm_offers z _)
  · exact moved _ _ (setZoneRt z _ s)

theorem judgeClear_offers (z : ZoneId) (level : Byte) (s : State) : Offers s.link (judgeClear z level s).link := by
  unfold judgeClear; split
  · split
    · exact changeZone_offers z _ _ (startConfirm z s)
    · exact changeZone_offers z _ _ s
  · exact .refl _

theorem judgeSuspect_offers (z : ZoneId) (level : Byte) (s : State) : Offers s.link (judgeSuspect z level s).link := by
  unfold judgeSuspect; split
  · exact changeZone_offers z _ _ (stopConfirm z s)
  · split
    · exact .refl _
    · split <;> exact .refl _

theorem judge_offers (z : ZoneId) (level : Byte) (s : State) : Offers s.link (judge z level s).link := by
  unfold judge; split
  · exact judgeClear_offers z level s
  · exact judgeSuspect_offers z level s
  · split
    · exact .refl _
    · exact changeZone_offers z _ _ (startClearHold z s)
  · split
    · exact changeZone_offers z _ _ (stopClearHold z s)
    · exact .refl _
  · exact (changeZone_offers z _ _ s).trans (judgeClear_offers z level _)

theorem takeReading_offers (z : ZoneId) (level : Byte) (s : State) : Offers s.link (takeReading z level s).link := by
  unfold takeReading restartSilence; split <;> exact judge_offers z level (setZoneRt z _ s)

theorem takeReadings_offers (entries : List (Byte × Byte)) (s : State) : Offers s.link (takeReadings entries s).2.link := by
  induction entries generalizing s with
  | nil => exact .refl _
  | cons e rest ih =>
    unfold takeReadings; split
    · exact (takeReading_offers _ _ s).trans (ih _)
    · exact ih s

theorem zoneReadings_offers (entries : List (Byte × Byte)) (s : State) : Offers s.link (zoneReadings entries s).state.link := by
  unfold zoneReadings; split
  · exact .refl _
  · exact takeReadings_offers entries s

theorem confirmZone_offers (index : Byte) (s : State) : Offers s.link (confirmZone index s).state.link := by
  unfold confirmZone; split
  · exact .refl _
  · next z _ =>
    show Offers s.link (if (zoneOf s z).state = .smoke then stopTimers z s
      else changeZone z .smoke .confirmZone (stopTimers z s)).link
    split
    · exact .refl _
    · exact changeZone_offers z _ _ (stopTimers z s)

theorem confirmExpiry_offers (z : ZoneId) (s : State) : Offers s.link (confirmExpiry z s).link := by
  unfold confirmExpiry; split
  · exact .refl _
  · next t _ =>
    dsimp only; split
    · exact changeZone_offers z _ _ (stopSilence z (stopConfirm z (reachTime t s)))
    · exact .refl _

theorem clearHoldExpiry_offers (z : ZoneId) (s : State) : Offers s.link (clearHoldExpiry z s).link := by
  unfold clearHoldExpiry; split
  · exact .refl _
  · next t _ =>
    dsimp only; split
    · split
      · exact changeZone_offers z _ _ (startSilence z (stopClearHold z (reachTime t s)))
      · exact changeZone_offers z _ _ (stopClearHold z (reachTime t s))
    · exact .refl _

theorem silenceExpiry_offers (z : ZoneId) (s : State) : Offers s.link (silenceExpiry z s).link := by
  unfold silenceExpiry; split
  · exact .refl _
  · next t _ =>
    dsimp only; split
    · exact changeZone_offers z _ _ (stopConfirm z (stopSilence z (reachTime t s)))
    · exact .refl _

/-! ## Publication and changes of mode -/

theorem publishTable_offers (table : RouteTable) (s : State) : Offers s.link (publishTable table s).link := by
  unfold publishTable; dsimp only
  exact (recomputeAll_offers (replaceTable (withTargets s.map table) s)).trans (offer_offers _ _)

theorem publish_offers (s : State) : Offers s.link (publish s).link := by
  unfold publish; split
  · next table _ _ =>
    have published := publishTable_offers table s
    unfold afterPublication; split
    · rw [startRun_link]; exact published
    · exact published
  · exact .refl _

theorem disarmEngine_offers (s : State) : Offers s.link (disarmEngine s).link := by
  unfold disarmEngine; split
  · rw [clearEngine_link]; exact publishTable_offers _ s
  · exact .refl _

theorem enterGuard_offers (s : State) : Offers s.link (enterGuard s).link := by
  have silences : Offers s.link (guardSilences s).link :=
    .forEach _ (fun z t => by unfold guardSilence; split <;> exact .refl _) s
  unfold enterGuard requestOnEntry; split
  · exact silences.trans (requestAlarm_offers _ _)
  · exact silences

theorem restartGuard_offers (s : State) : Offers s.link (restartGuard s).link := by
  unfold restartGuard; split
  · rw [startRun_link]; exact enterGuard_offers s
  · exact .refl _

/-- A change of mode offers its MODE notice, and what its action offers (R151). -/
theorem changeMode_offers (new : Mode) (cause : ModeCause) (outcome : ModeOutcome) (zone : Option ZoneId) {act : State → State}
    (h : ∀ u, Offers u.link (act u).link) (s : State) : Offers s.link (changeMode new cause outcome zone act s).link :=
  (offer_offers _ { s with mode := new }).trans ((h _).trans (recomputeAll_offers _))

theorem id_offers (s : State) : Offers s.link (id s).link := .refl _

theorem completeValidation_offers (s : State) : Offers s.link (completeValidation s).link := by
  have loaded (u : State) : Offers u.link (forEach 24 loadBias u).link :=
    .forEach _ (fun e t => by unfold loadBias; split <;> exact .refl _) u
  unfold completeValidation passValidation failValidation; split
  · split
    · exact (loaded (setResult .passed { s with map := { s.map with validated := true } })).trans
        (changeMode_offers _ _ _ _ (fun u => enterGuard_offers (startRun u)) _)
    · next f _ =>
      exact changeMode_offers _ _ _ _ id_offers (setResult (.failed f) { s with map := { s.map with validated := false } })
  · exact .refl _

theorem autoAlarm_offers (s : State) : Offers s.link (autoAlarm s).link := by
  unfold autoAlarm; split
  · exact .refl _
  · next rest _ =>
    dsimp only; split
    · exact changeMode_offers _ _ _ _ id_offers { s with alarmRequests := rest }
    · exact .refl _

theorem arm_offers (s : State) : Offers s.link (arm s).state.link := by
  unfold arm; split <;> dsimp only [taken, refuse]
  · exact changeMode_offers _ _ _ _ id_offers (setResult .running s)
  · exact .refl _

theorem disarm_offers (s : State) : Offers s.link (disarm s).state.link := by
  unfold disarm; split <;> dsimp only [taken, refuse]
  · exact changeMode_offers _ _ _ _ disarmEngine_offers s
  · exact changeMode_offers _ _ _ _ id_offers (setResult .cancelled s)
  · exact .refl _
  · exact .refl _

theorem alarm_offers (s : State) : Offers s.link (alarm s).state.link := by
  unfold alarm; split <;> dsimp only [taken, refuse]
  · exact changeMode_offers _ _ _ _ id_offers s
  · exact .refl _

theorem standDown_offers (s : State) : Offers s.link (standDown s).state.link := by
  unfold standDown; split
  · exact .refl _
  · split <;> dsimp only [taken, refuse]
    · exact .refl _
    · exact changeMode_offers _ _ _ _ enterGuard_offers s

theorem setTiming_offers (setting : Byte) (value : Half) (s : State) : Offers s.link (setTiming setting value s).state.link := by
  unfold setTiming; split
  · split
    · exact .refl _
    · exact .of_eq (storeTiming_link _ s)
  · exact .refl _

/-- RESTART empties the notice queue and clears both link flags, and then offers notices (R158). -/
theorem restart_offers {s : State} (h : s.mode ≠ .alarm) :
    Offers { s.link with notices := [], lossMark := false, discarded := false } (restart s).state.link := by
  have exits (u : State) : Offers u.link (forEach 24 restartExit u).link :=
    .forEach _ (fun e t => by unfold restartExit; split; exacts [reevalExit_offers false e _, .refl _]) u
  have blocks (u : State) : Offers u.link (restartBlocks u).link := by
    unfold restartBlocks; rw [clearEngine_link, openAisles_link]
    exact exits { u with zones := Vector.replicate 64 ZoneRt.reset, scanner := Vector.replicate 32 Contact.reset }
  rw [restart_eq s h]; dsimp only [taken]
  exact Offers.trans (.of_eq (by rw [cancelled_eq])) ((blocks (cancelled s)).trans
    (changeMode_offers _ _ _ _ restartGuard_offers _))

theorem writeBlocked_offers (x : AisleId) (b : Bool) (s : State) : Offers s.link (writeBlocked x b s).link := by
  unfold writeBlocked; split
  · exact .refl _
  · exact handChange_offers _ _

theorem blockAisle_offers (index : Half) (s : State) : Offers s.link (blockAisle index s).state.link := by
  unfold blockAisle; split
  · exact .refl _
  · exact writeBlocked_offers _ true s

theorem openAisle_offers (index : Half) (s : State) : Offers s.link (openAisle index s).state.link := by
  unfold openAisle; split
  · exact .refl _
  · exact writeBlocked_offers _ false s

end Sys2Proof.Machine
end

section
/-! The head manager, the pair unit, the sign bus and the map requests act on the panel link by the notices they offer. -/

namespace Sys2Proof.Machine

/-! ## Entries into states, faults and WAITs -/

theorem endTest_offers (h : HeadId) (s : State) : Offers s.link (endTest h s).link := by
  unfold endTest; split
  · exact offer_offers _ _
  · exact .refl _

theorem enterAbsent_offers (k : Bool) (h : HeadId) (s : State) : Offers s.link (enterAbsent k h s).link :=
  endTest_offers h s

theorem enterJoining_offers (h : HeadId) (a : Option Abilities) (s : State) : Offers s.link (enterJoining h a s).link :=
  endTest_offers h s

theorem enterFailed_offers (h : HeadId) (s : State) : Offers s.link (enterFailed h s).link := endTest_offers h s

theorem enterLoading_offers (h : HeadId) (s : State) : Offers s.link (enterLoading h s).link := endTest_offers h s

theorem headFault_offers (h : HeadId) (c : FaultCause) (s : State) : Offers s.link (headFault h c s).link :=
  (endTest_offers h (setHead h { countFault c (headOf s h) with state := .recovering } s)).trans
    ((offer_offers _ _).trans (refreshHead_offers h _))

theorem resyncFault_offers (h : HeadId) (c : FaultCause) (s : State) : Offers s.link (resyncFault h c s).link :=
  (enterFailed_offers h (noteFault h c s)).trans (offer_offers _ _)

/-! ## Outcomes by command -/

theorem assignAck_offers (h : HeadId) (s : State) : Offers s.link (assignAck h s).link :=
  (enterLoading_offers h s).trans (refreshHead_offers h (setHead h _ (enterLoading h s)))

theorem assignOutcome_offers (h : HeadId) (t : Taken) (s : State) : Offers s.link (assignOutcome h t s).link := by
  cases t with
  | ack => exact assignAck_offers h s
  | wait => exact .refl _
  | fault c => exact enterAbsent_offers true h (noteFault h c s)

theorem scriptAck_offers (h : HeadId) (g sc b : Byte) (s : State) : Offers s.link (scriptAck h g sc b s).link := by
  unfold scriptAck; dsimp only; split
  · exact .refl _
  · split
    · exact (offer_offers _ (setHead h _ s)).trans (refreshHead_offers h _)
    · exact .refl _

theorem scriptOutcome_offers (h : HeadId) (g sc b : Byte) (t : Taken) (s : State) :
    Offers s.link (scriptOutcome h g sc b t s).link := by
  cases t with
  | ack => exact scriptAck_offers h g sc b s
  | wait => exact .refl _
  | fault c => exact headFault_offers h c s

theorem confirmDisplay_offers (h : HeadId) (d : Option Display) (s : State) : Offers s.link (confirmDisplay h d s).link := by
  cases d <;> exact .refl _

theorem testDone_offers (h : HeadId) (st : AckStatus) (s : State) : Offers s.link (testDone h st s).link := by
  unfold testDone; split
  · exact offer_offers _ _
  · exact .refl _

theorem refreshIf_offers (c : Bool) (h : HeadId) (s : State) : Offers s.link (refreshIf c h s).link := by
  unfold refreshIf; split
  · exact refreshHead_offers h s
  · exact .refl _

/-- What an ACK shows is taken with nothing offered (R124). -/
theorem takeAck_offers (h : HeadId) (d : Option Display) (st : AckStatus) (s : State) :
    Offers s.link (takeStatus h st (confirmDisplay h d s)).link := confirmDisplay_offers h d s

theorem servingAck_offers (h : HeadId) (c : BusCommand) (st : AckStatus) (s : State) :
    Offers s.link (servingAck h c st s).link := by
  have tested (t : State) : Offers t.link (if c = .test then testDone h st t else t).link := by
    split; exacts [testDone_offers _ _ _, .refl _]
  have reloads (b : Bool) (t : State) : Offers t.link (if b then enterLoading h t else t).link := by
    split; exacts [enterLoading_offers _ _, .refl _]
  exact (takeAck_offers h (carriedDisplay c) st s).trans
    ((tested _).trans ((reloads _ _).trans (refreshIf_offers _ h _)))

theorem heldByWait_offers (h : HeadId) (c : BusCommand) (o : Bool) (s : State) : Offers s.link (heldByWait h c o s).link := by
  unfold heldByWait; split
  · split <;> exact .refl _
  · exact .refl _

theorem servingOutcome_offers (h : HeadId) (c : BusCommand) (o : Bool) (t : Taken) (s : State) :
    Offers s.link (servingOutcome h c o t s).link := by
  cases t with
  | ack st => exact servingAck_offers h c st s
  | wait => exact heldByWait_offers h c o (waitUp h s)
  | fault c => exact headFault_offers h c s

theorem loadingOutcome_offers (h : HeadId) (c : BusCommand) (o : Bool) (t : Taken) (s : State) :
    Offers s.link (loadingOutcome h c o t s).link := by
  cases t with
  | ack st => exact (takeAck_offers h (carriedDisplay c) st s).trans (refreshIf_offers _ _ _)
  | wait => exact heldByWait_offers h c o (waitUp h s)
  | fault c => exact headFault_offers h c s

theorem resyncAck_offers (h : HeadId) (d : Option Display) (st : AckStatus) (s : State) :
    Offers s.link (resyncAck h d st s).link := by
  have taken := takeAck_offers h d st s
  unfold resyncAck; dsimp only; split
  · exact taken.trans ((offer_offers _ (setHead h _ (takeStatus h st (confirmDisplay h d s)))).trans (refreshHead_offers h _))
  · exact taken.trans ((enterLoading_offers h _).trans (refreshHead_offers h _))

theorem resyncOutcome_offers (h : HeadId) (d : Display) (t : Taken) (s : State) :
    Offers s.link (resyncOutcome h d t s).link := by
  cases t with
  | ack st => exact resyncAck_offers h (some d) st s
  | wait => exact .refl _
  | fault c => exact resyncFault_offers h c s

theorem ownOutcome_offers (h : HeadId) (c : BusCommand) (w : WindowClass) (s : State) :
    Offers s.link (ownOutcome h c w s).link := by
  unfold ownOutcome
  generalize takenOf (headOf s h) w = t
  generalize (headOf s h).state = st
  cases c
  case assign =>
    cases st
    case joining => exact assignOutcome_offers h t s
    all_goals exact .refl _
  case script =>
    cases st
    case loading => exact scriptOutcome_offers h _ _ _ t s
    all_goals exact .refl _
  case display | poll | test =>
    cases st
    case serving => exact servingOutcome_offers h _ _ t s
    case loading => exact loadingOutcome_offers h _ _ t s
    all_goals exact .refl _
  case resync =>
    cases st
    case recovering => exact resyncOutcome_offers h _ t s
    all_goals exact .refl _
  all_goals exact .refl _

theorem observedAssign_offers (h : HeadId) (t : Taken) (s : State) : Offers s.link (observedAssign h t s).link := by
  cases t with
  | ack => exact assignAck_offers h s
  | wait => exact .refl _
  | fault => exact .refl _

theorem observedScript_offers (h : HeadId) (g sc b : Byte) (t : Taken) (s : State) :
    Offers s.link (observedScript h g sc b t s).link := by
  cases t with
  | ack st => exact (enterLoading_offers h s).trans ((refreshHead_offers h _).trans (scriptAck_offers h g sc b _))
  | wait => exact .refl _
  | fault c =>
    unfold observedScript; dsimp only; split
    · exact headFault_offers h c s
    · exact .refl _

theorem observedRecovering_offers (h : HeadId) (c : BusCommand) (t : Taken) (s : State) :
    Offers s.link (observedRecovering h c t s).link := by
  cases t with
  | ack st => exact resyncAck_offers h _ st s
  | wait => exact .refl _
  | fault c => exact .refl _

theorem observedOutcome_offers (h : HeadId) (c : BusCommand) (w : WindowClass) (s : State) :
    Offers s.link (observedOutcome h c w s).link := by
  unfold observedOutcome
  generalize takenOf (headOf s h) w = t
  generalize (headOf s h).state = st
  cases c
  case assign =>
    cases st
    case joining => exact assignOutcome_offers h t s
    case loading | serving | recovering => exact observedAssign_offers h t s
    all_goals exact .refl _
  case script =>
    cases st
    case loading => exact scriptOutcome_offers h _ _ _ t s
    case serving | recovering => exact observedScript_offers h _ _ _ t s
    all_goals exact .refl _
  case display | poll | test =>
    cases st
    case serving => exact servingOutcome_offers h _ _ t s
    case loading => exact loadingOutcome_offers h _ _ t s
    case recovering => exact observedRecovering_offers h _ t s
    all_goals exact .refl _
  case resync =>
    cases st
    case loading | serving | recovering => exact resyncOutcome_offers h _ t s
    all_goals exact .refl _
  all_goals exact .refl _

/-! ## Announcements, library edits and the release of all heads -/

theorem strangerHeard_offers (serial : Serial) (a : Abilities) (s : State) :
    Offers s.link (strangerHeard serial a s).link := by
  unfold strangerHeard; dsimp only; split
  · exact .refl _
  · exact offer_offers _ _

theorem failedAnnounces_offers (h : HeadId) (a : Abilities) (s : State) : Offers s.link (failedAnnounces h a s).link := by
  unfold failedAnnounces; dsimp only; split
  · exact .refl _
  · exact offer_offers _ _

theorem acceptedAnnouncement_offers (serial : Serial) (a : Abilities) (s : State) :
    Offers s.link (acceptedAnnouncement serial a s).link := by
  unfold acceptedAnnouncement; split
  · exact strangerHeard_offers _ _ s
  · next h _ =>
    split
    · split
      · exact .refl _
      · exact failedAnnounces_offers h a s
      · exact enterJoining_offers h _ s
    · exact .refl _

theorem announce_offers (serial : Serial) (a : Abilities) (s : State) : Offers s.link (announce serial a s).link := by
  unfold announce enrolFaulty; split
  · split
    · exact .refl _
    · exact offer_offers _ _
  · exact acceptedAnnouncement_offers serial a s

theorem reloadHead_offers (h : HeadId) (s : State) : Offers s.link (reloadHead h s).link := by
  unfold reloadHead; split
  · exact (enterLoading_offers h s).trans (refreshHead_offers h _)
  · exact .refl _

theorem releaseHeads_offers (s : State) : Offers s.link (releaseHeads s).link := by
  unfold releaseHeads; dsimp only
  exact .forEach _ (enterAbsent_offers false) s

theorem testHead_offers (index : Byte) (s : State) : Offers s.link (testHead index s).state.link := by
  unfold testHead; split
  · exact .refl _
  · split
    · exact .refl _
    · split <;> exact .refl _

theorem restoreHead_offers (index : Byte) (s : State) : Offers s.link (restoreHead index s).state.link := by
  unfold restoreHead; split
  · exact .refl _
  · next h _ =>
    split
    · exact .refl _
    · exact enterJoining_offers h (headOf s h).abilities s

/-! ## The sign bus -/

theorem startSlot_offers (k : SlotId) (s : State) : Offers s.link (startSlot k s).link := by
  unfold startSlot; split <;> exact .refl _

theorem sendCommand_offers (k : SlotId) (kind : SlotKind) (a : Byte) (h : Option HeadId) (c : BusCommand) (s : State) :
    Offers s.link (sendCommand k kind a h c s).link := .refl _

theorem enrolSlot_offers (s : State) : Offers s.link (enrolSlot s).link := by
  unfold enrolSlot; split
  · exact (startSlot_offers 1 s).trans (sendCommand_offers ..)
  · exact .refl _

theorem partnerSlot_offers (s : State) : Offers s.link (partnerSlot s).link := by
  unfold partnerSlot; split
  · exact (startSlot_offers 2 s).trans (sendCommand_offers ..)
  · exact .refl _

theorem updateSlot_offers (k : SlotId) (s : State) : Offers s.link (updateSlot k s).link := by
  unfold updateSlot; split
  · split
    · exact (startSlot_offers k s).trans (sendCommand_offers ..)
    · exact startSlot_offers k s
  · exact .refl _

theorem pollSlot_offers (k : SlotId) (s : State) : Offers s.link (pollSlot k s).link := by
  unfold pollSlot; split
  · split
    · split
      · exact (startSlot_offers k s).trans (sendCommand_offers ..)
      · exact startSlot_offers k s
    · exact .refl _
  · exact .refl _

theorem headsActed_offers (a : Byte) (c : BusCommand) (w : WindowClass) (s : State) :
    Offers s.link (headsActed a c w s).link := by
  unfold headsActed; split <;> exact .refl _

theorem headAnnounced_offers (serial : Serial) (s : State) : Offers s.link (headAnnounced serial s).link := by
  unfold headAnnounced; split <;> exact .refl _

theorem enrolOutcome_offers (w : WindowClass) (s : State) : Offers s.link (enrolOutcome w s).link := by
  have heard (serial : Serial) (a : Abilities) (u : State) : Offers u.link (announce serial a (headAnnounced serial u)).link :=
    (headAnnounced_offers serial u).trans (announce_offers serial a _)
  unfold enrolOutcome; dsimp only; split
  · exact heard _ _ { s with bus := { s.bus with contention := _ } }
  · exact .refl _

/-! ## The pair unit -/

theorem partnerFrame_offers (s : State) : Offers s.link (partnerFrame s).link := by
  unfold partnerFrame; split
  · exact .refl _
  · exact offerPair_offers _ _ (startPairSilence _)
  · exact .refl _

theorem observePartner_offers (s : State) : Offers s.link (observePartner s).link := partnerFrame_offers s

theorem compareDigests_offers (d : Half) (s : State) : Offers s.link (compareDigests d s).link := by
  unfold compareDigests; dsimp only; split
  · exact .refl _
  · split
    · exact offerPair_offers _ _ _
    · exact .refl _

theorem raiseLost_offers (s : State) : Offers s.link (raiseLost s).link := by
  unfold raiseLost; dsimp only; split
  · exact offerPair_offers _ _ _
  · exact .refl _

theorem partnerOutcome_offers (w : WindowClass) (s : State) : Offers s.link (partnerOutcome w s).link := by
  unfold partnerOutcome; split
  · exact compareDigests_offers _ { s with pair := _ }
  · exact raiseLost_offers s

theorem handOutcome_offers (t : Transaction) (w : WindowClass) (s : State) : Offers s.link (handOutcome t w s).link := by
  unfold handOutcome; split
  · exact .refl _
  · exact .refl _
  · exact enrolOutcome_offers w s
  · exact partnerOutcome_offers w s
  · exact (headsActed_offers _ _ w s).trans (ownOutcome_offers _ _ w _)
  · exact .refl _

theorem completeTransaction_offers (w : Window) (s : State) : Offers s.link (completeTransaction w s).link := by
  unfold completeTransaction; split
  · exact handOutcome_offers _ _ { s with bus := { s.bus with inFlight := none } }
  · exact .refl _

theorem takeBroadcast_offers (c : BusCommand) (w : Window) (s : State) : Offers s.link (takeBroadcast c w s).link := by
  unfold takeBroadcast; split
  · exact .refl _
  · rw [eachHears_link]; exact releaseHeads_offers (alignFrame _ s)
  · exact enrolOutcome_offers _ s
  · exact .refl _

theorem observeBroadcast_offers (f : BusFrame) (w : Window) (s : State) : Offers s.link (observeBroadcast f w s).link := by
  unfold observeBroadcast; split
  · split
    · split
      · exact (observePartner_offers s).trans (takeBroadcast_offers _ w _)
      · exact observePartner_offers s
    · exact observePartner_offers s
  · exact .refl _

theorem takeObserved_offers (a : Byte) (c : BusCommand) (w : Window) (s : State) :
    Offers s.link (takeObserved a c w s).link := by
  have acted := headsActed_offers a c (classify a c w) (eachHead (hearCommand a c) s)
  unfold takeObserved; dsimp only; split
  · split
    · exact acted.trans (observedOutcome_offers _ _ _ _)
    · exact acted
  · exact acted

theorem observeTransaction_offers (f : BusFrame) (w : Window) (s : State) :
    Offers s.link (observeTransaction f w s).link := by
  unfold observeTransaction; split
  · split
    · exact (observePartner_offers s).trans (takeObserved_offers _ _ w _)
    · exact observePartner_offers s
  · exact .refl _

theorem takeQuery_offers (d : Half) (m b : Byte) (s : State) : Offers s.link (takeQuery d m b s).link :=
  compareDigests_offers d { s with pair := _, bus := _ }

theorem observeQuery_offers (f : BusFrame) (s : State) : Offers s.link (observeQuery f s).link := by
  unfold observeQuery; split
  · dsimp only; split
    · split
      · exact (observePartner_offers s).trans (takeQuery_offers _ _ _ _)
      · exact observePartner_offers s
    · exact observePartner_offers s
  · exact .refl _

theorem silenceEnds_offers (ph : Bool) (s : State) : Offers s.link (silenceEnds ph s).link := by
  unfold silenceEnds partnerStuck; split
  · dsimp only; split
    · split
      · exact .refl _
      · exact offerPair_offers _ _ _
    · exact .refl _
  · exact .refl _

theorem guardEnds_offers (ph : Bool) (s : State) : Offers s.link (guardEnds ph s).link := by
  have duty (u : State) : Offers u.link (enterDuty u).link := by
    unfold enterDuty sendBeat broadcastBeat; rw [eachHears_link]; dsimp only
    rw [startFrame_link, reachTime_link]; exact offerPair_offers _ _ { u with pair := _ }
  unfold guardEnds; split
  · next g _ _ =>
    have gives (c : PairCause) : Offers s.link (giveUpClaim c (reachTime g.expiry s)).link :=
      offerPair_offers _ _ (startPairSilence _)
    dsimp only; split
    · exact duty (reachTime g.expiry s)
    · split
      · exact gives _
      · split
        · exact gives _
        · exact .refl _
  · exact .refl _

theorem endYield_offers (s : State) : Offers s.link (endYield s).link := offerPair_offers _ _ (startPairSilence _)

theorem enterIsolated_offers (s : State) : Offers s.link (enterIsolated s).link := offerPair_offers _ _ (stopDriving _)

theorem isolateUnit_offers (s : State) : Offers s.link (isolateUnit s).state.link := by
  unfold isolateUnit; split
  · exact .refl _
  · exact .refl _
  · exact enterIsolated_offers s
  · exact enterIsolated_offers s
  · exact .refl _
  · exact .refl _

theorem yieldBus_offers (s : State) : Offers s.link (yieldBus s).state.link := by
  unfold yieldBus; split <;> exact .refl _

theorem restartBus_offers (s : State) : Offers s.link (restartBus s).state.link := by
  unfold restartBus; split
  · dsimp only [taken, clearBus]; exact releaseHeads_offers s
  · exact .refl _

/-! ## The map requests -/

theorem defineExitRt_offers (d : Bool) (e : ExitId) (s : State) : Offers s.link (defineExitRt d e s).link := by
  unfold defineExitRt; split <;> exact .refl _

theorem removeExitRt_offers (e : ExitId) (s : State) : Offers s.link (removeExitRt e s).link := by
  unfold removeExitRt; dsimp only; split
  · exact offer_offers _ _
  · exact .refl _

theorem unplace_offers (h : HeadId) (s : State) : Offers s.link (unplace h s).link := by
  unfold unplace; split
  · exact enterAbsent_offers false h (setPlacement h _ s)
  · exact .refl _

theorem clearedMap_offers (s : State) : Offers s.link (clearedMap s).link := by
  have removed (u : State) : Offers u.link (forEach 24 removeIfDefined u).link :=
    .forEach _ (fun e t => by unfold removeIfDefined; split; exacts [removeExitRt_offers e t, .refl _]) u
  have emptied (u : State) : Offers u.link (emptyTables u).link := by unfold emptyTables; dsimp only; exact removed u
  unfold clearedMap; rw [replaceTable_link]
  exact (Offers.forEach unplace unplace_offers s).trans (emptied _)

theorem editLibrary_offers (i : Fin 12) (steps : Option (List ScriptStep)) (s : State) :
    Offers s.link (editLibrary i steps s).link :=
  (acceptMap_offers (writeScript i steps s)).trans ((Offers.forEach reloadHead reloadHead_offers _).trans (recomputeAll_offers _))

/-- An edit of the map offers the notices of its heads and exits (R11, R12, R43, R84). -/
theorem MapEdit.offers {s t : State} (h : MapEdit s t) : Offers s.link t.link := by
  cases h with
  | none => exact .refl _
  | point p r => exact acceptMap_offers (followPoint p (setPointRec p r s))
  | aisle x r _ => exact acceptMap_offers (setAisleRec x r s)
  | defineExit e r _ => exact (defineExitRt_offers _ e (setExitRec e r s)).trans (acceptMap_offers _)
  | removeExit e => exact (removeExitRt_offers e (setExitRec e _ s)).trans (acceptMap_offers _)
  | defineZone z r _ =>
    have fresh : Offers s.link (if (look s.map.zones z).defined then s else setZoneRt z ZoneRt.reset s).link := by
      split <;> exact .refl _
    exact fresh.trans (acceptMap_offers (setZoneRec z r _))
  | removeZone z => exact acceptMap_offers (setZoneRt z _ (setZoneRec z _ s))
  | place h r _ => exact acceptMap_offers { setPlacement h r s with heads := _ }
  | unplace h => exact (unplace_offers h s).trans (acceptMap_offers _)
  | clear => exact clearedMap_offers s
  | script i steps _ => exact editLibrary_offers i steps s
  | kindMap i n => exact (acceptMap_offers (writeKindMap i n s)).trans (recomputeAll_offers _)

/-! ## Every command -/

/-- The requests that write the link themselves: RESTART and those on the notice filter and the loss mark (R158, R168). -/
def writesLink : Instr → Bool
  | .restart _ | .setNoticeFilter .. | .clearNoticeLoss _ => true
  | _ => false

/-- Every other request acts on the link by the notices it offers. -/
theorem requestAct_offers {i : Instr} (s : State) (h : writesLink i = false) : Offers s.link (requestAct i s).state.link := by
  cases o : ownerOf i with
  | map =>
    rcases requestAct_map s o with e | ⟨-, edit⟩
    · rw [e]; exact .refl _
    · exact edit.offers
  | reset => rw [requestAct_reset s o]; exact .refl _
  | modes =>
    cases i
    case restart => exact absurd h nofun
    case arm => exact arm_offers s
    case disarm => exact disarm_offers s
    case alarm => exact alarm_offers s
    case standDown => exact standDown_offers s
    case setTiming => exact setTiming_offers _ _ s
    case blockAisle => exact blockAisle_offers _ s
    case openAisle => exact openAisle_offers _ s
    case validationComplete | autoAlarmRequest => exact .refl _
    all_goals exact absurd o nofun
  | bus =>
    cases i
    case testHead => exact testHead_offers _ s
    case restoreHead => exact restoreHead_offers _ s
    case restartBus => exact restartBus_offers s
    case yield => exact yieldBus_offers s
    case isolate => exact isolateUnit_offers s
    case beat | releaseAll | enrol | partnerSlot | updateSlot | pollSlot | transactionComplete | yieldingEnd | isolateSlotEnd
      | pairSilenceExpiry | claimGuardExpiry | observedBroadcast | observedTransaction | partnerQueryObserved
      | partnerQueryMissed => exact .refl _
    all_goals exact absurd o nofun
  | monitors =>
    have same {t : State} (e : t = s) : Offers s.link t.link := e ▸ .refl _
    cases i
    case setNoticeFilter | clearNoticeLoss => exact absurd h nofun
    case zoneReadings => exact zoneReadings_offers _ s
    case confirmZone => exact confirmZone_offers _ s
    case exitOverride => exact exitOverride_offers _ _ s
    case exitBias => exact exitBias_offers _ _ s
    case getPoint => exact same (getPoint_state _ s)
    case getZone => exact same (getZone_state _ s)
    case getExit => exact same (getExit_state _ s)
    case getHead => exact same (getHead_state _ s)
    case getStatus | getStrangers | confirmTimerExpiry | clearHoldExpiry | zoneSilenceExpiry | gateScan | sweepEnd
      | selectionEnd | publication | panelByteReceived | transmitFrameEnd | unknownType => exact .refl _
    all_goals exact absurd o nofun

/-- An event of the part's own acts on the link by the notices it offers, a hard reset aside. -/
theorem eventOf_offers {c : Instr} (s : State) (h : ownerOf c ≠ .reset) : Offers s.link (eventOf c s).link := by
  cases c
  case hardReset => exact absurd rfl h
  case validationComplete => exact completeValidation_offers s
  case autoAlarmRequest => exact autoAlarm_offers s
  case confirmTimerExpiry => exact confirmExpiry_offers _ s
  case clearHoldExpiry => exact clearHoldExpiry_offers _ s
  case zoneSilenceExpiry => exact silenceExpiry_offers _ s
  case gateScan => exact gateScan_offers _ s
  case sweepEnd => exact endSweep_offers s
  case selectionEnd => exact endSelection_offers s
  case publication => exact publish_offers s
  case beat | releaseAll => dsimp only [eventOf]; split <;> exact .refl _
  case enrol => exact enrolSlot_offers s
  case partnerSlot => exact partnerSlot_offers s
  case updateSlot => exact updateSlot_offers _ s
  case pollSlot => exact pollSlot_offers _ s
  case transactionComplete => exact completeTransaction_offers _ s
  case yieldingEnd => dsimp only [eventOf]; split; exacts [endYield_offers (reachTime (frameEnd s) s), .refl _]
  case isolateSlotEnd => dsimp only [eventOf]; split; exacts [enterIsolated_offers s, .refl _]
  case pairSilenceExpiry => exact silenceEnds_offers _ s
  case claimGuardExpiry => exact guardEnds_offers _ s
  case observedBroadcast => exact observeBroadcast_offers _ _ s
  case observedTransaction => exact observeTransaction_offers _ _ s
  case partnerQueryObserved => exact observeQuery_offers _ s
  case partnerQueryMissed => dsimp only [eventOf]; split <;> exact .refl _
  all_goals exact .refl _

end Sys2Proof.Machine
end

section
/-! The panel link's own operations, case by case: the transmitter's choice, an offered notice, the end of a frame on the
line, and a request in service (R163, R167, R169). -/

namespace Sys2Proof.Machine

/-! ## The transmitter's choice (R169) -/

section Transmitter
variable {l : Link} (free : l.sending = none)
include free

theorem beginNext_reply {r : PanelFrame} (waits : l.reply = some r) :
    beginNext l = { l with sending := some (sendingOf r), reply := none } := by
  unfold beginNext; rw [free, waits]

theorem beginNext_notice {n : Notice} {rest : List Notice} (empty : l.reply = none) (idle : l.serving = false)
    (queued : l.notices = n :: rest) :
    beginNext l = { l with sending := some (sendingOf (noticeFrame n)), notices := rest } := by
  unfold beginNext; rw [free, empty, idle, queued]; rfl

theorem beginNext_idle (empty : l.reply = none) (quiet : l.notices = []) : beginNext l = l := by
  unfold beginNext; rw [free, empty, quiet]; exact ite_self l

end Transmitter

/-- With no reply formed yet, a request in service keeps the transmitter from beginning anything (R169). -/
theorem beginNext_waits {l : Link} (empty : l.reply = none) (serving : l.serving = true) : beginNext l = l := by
  unfold beginNext; split
  · rfl
  · rw [empty]; exact if_pos serving

/-! ## An offered notice (R167) -/

section Offered
variable {l : Link} {n : Notice}

theorem offerLink_masked (masks : l.filter.getLsbD (noticeKind n).val = true) : offerLink n l = l := if_pos masks

variable (passes : l.filter.getLsbD (noticeKind n).val = false)
include passes

theorem offerLink_full (full : 32 ≤ l.notices.length) : offerLink n l = { l with lossMark := true } := by
  unfold offerLink masked; rw [passes]; exact if_pos full

theorem offerLink_joins (room : l.notices.length < 32) : offerLink n l = beginNext { l with notices := l.notices ++ [n] } := by
  unfold offerLink masked; rw [passes]; exact if_neg (Nat.not_le.mpr room)

end Offered

/-- What an offered notice can do (R167). -/
theorem offerLink_cases (n : Notice) (l : Link) :
    offerLink n l = l ∨ offerLink n l = { l with lossMark := true }
    ∨ l.notices.length < 32 ∧ offerLink n l = beginNext { l with notices := l.notices ++ [n] } := by
  cases passes : l.filter.getLsbD (noticeKind n).val with
  | true => exact .inl (offerLink_masked passes)
  | false =>
    rcases Nat.lt_or_ge l.notices.length 32 with room | full
    · exact .inr (.inr ⟨room, offerLink_joins passes room⟩)
    · exact .inr (.inl (offerLink_full passes full))

/-! ## A request in service -/

/-- What the effect of a request may change on the link while the request is in service: notices wait, and the filter and
the link flags may be written (R158, R167 to R169). -/
def InService (l m : Link) : Prop :=
  ∃ q f loss gone, m = { l with notices := q, filter := f, lossMark := loss, discarded := gone }
    ∧ (l.notices.length ≤ Config.noticeCapacity → q.length ≤ Config.noticeCapacity)

theorem InService.refl (l : Link) : InService l l := ⟨_, _, _, _, rfl, id⟩

section Service
variable {l m : Link} (serving : l.serving = true) (empty : l.reply = none)
include serving empty

/-- A notice offered by the request in service waits in the queue (R169). -/
theorem InService.offer (n : Notice) (h : InService l m) : InService l (offerLink n m) := by
  obtain ⟨q, f, loss, gone, rfl, fits⟩ := h
  rcases offerLink_cases n { l with notices := q, filter := f, lossMark := loss, discarded := gone } with e | e | ⟨room, e⟩
  · rw [e]; exact ⟨q, f, loss, gone, rfl, fits⟩
  · rw [e]; exact ⟨q, f, true, gone, rfl, fits⟩
  · rw [e, beginNext_waits (l := { l with notices := q ++ [n], filter := f, lossMark := loss, discarded := gone }) empty serving]
    exact ⟨q ++ [n], f, loss, gone, rfl, fun _ => by rw [List.length_append]; exact room⟩

theorem InService.offers (h : InService l m) {k : Link} (offers : Offers m k) : InService l k :=
  offers.keeps h fun n _ hk => hk.offer serving empty n

end Service

/-- Every request, while in service, leaves the line, the reply slot, the buffer and the receiver as they are (R163, R169). -/
theorem requestAct_inService (i : Instr) {s : State} (serving : s.link.serving = true) (empty : s.link.reply = none) :
    InService s.link (requestAct i s).state.link := by
  cases w : writesLink i with
  | false => exact (InService.refl _).offers serving empty (requestAct_offers s w)
  | true =>
    cases i
    case restart =>
      by_cases alarm : s.mode = .alarm
      · show InService s.link (restart s).state.link
        rw [restart_refused alarm]; exact .refl _
      · have emptied : InService s.link { s.link with notices := [], lossMark := false, discarded := false } :=
          ⟨_, _, _, _, rfl, fun _ => Nat.zero_le _⟩
        exact emptied.offers serving empty (restart_offers alarm)
    case setNoticeFilter =>
      show InService s.link (setNoticeFilter _ s).state.link
      unfold setNoticeFilter; split
      · exact ⟨_, _, _, _, rfl, id⟩
      · exact .refl _
    case clearNoticeLoss => exact ⟨_, _, _, _, rfl, id⟩
    all_goals exact absurd w nofun

/-- The link after the service of a request: the reply is begun by a free transmitter and waits in the reply slot otherwise
(R163, R169). -/
theorem serveWith_link {r : PanelFrame} {act : State → Served} {s : State}
    (acts : ∀ u, ∃ i, (act u).state = (requestAct i u).state) (empty : s.link.reply = none) :
    ∃ q f loss, (s.link.notices.length ≤ Config.noticeCapacity → q.length ≤ Config.noticeCapacity)
      ∧ (act (begun s)).state.link.lossMark = loss
      ∧ let reply := replyFrame r (act (begun s))
        (s.link.sending = none → (serveWith r act s).link
          = { s.link with
              sending := some (sendingOf reply), reply := none, notices := q, filter := f, lossMark := loss
              discarded := false, serving := false })
        ∧ (s.link.sending.isSome → (serveWith r act s).link
          = { s.link with
              reply := some reply, notices := q, filter := f, lossMark := loss, discarded := false, serving := false }) := by
  obtain ⟨i, act_i⟩ := acts (begun s)
  obtain ⟨q, f, loss, gone, link, fits⟩ := requestAct_inService i (s := begun s) rfl empty
  rw [← act_i] at link
  have served : (serveWith r act s).link = beginNext { (act (begun s)).state.link with
    reply := some (replyFrame r (act (begun s))), discarded := false, serving := false } := rfl
  generalize replyFrame r (act (begun s)) = reply at served ⊢
  rw [link] at served ⊢
  have formed : (serveWith r act s).link = beginNext { s.link with
    reply := some reply, notices := q, filter := f, lossMark := loss, discarded := false, serving := false } := served
  refine ⟨q, f, loss, fits, rfl, fun free => ?_, fun busy => ?_⟩
  · rw [formed, beginNext_reply (r := reply)]
    exacts [free, rfl]
  · rw [formed, beginNext_busy]
    exact busy

/-! ## The end of a frame on the line (R163, R169) -/

section Waiting
variable {s : State}

theorem serveWaiting_none (unbuffered : s.link.buffer = []) : serveWaiting s = s := by
  unfold serveWaiting; split
  · next e => rw [unbuffered] at e; cases e
  · rfl

theorem serveWaiting_first {q : PanelFrame} {rest : List PanelFrame} (empty : s.link.reply = none)
    (waits : s.link.buffer = q :: rest) :
    serveWaiting s = serveWith q (frameAct q) { s with link := { s.link with buffer := rest } } := by
  unfold serveWaiting; rw [empty, waits]

theorem endTransmit_free (free : s.link.sending = none) : endTransmit s = s := by
  unfold endTransmit; rw [free]

theorem endTransmit_busy (busy : s.link.sending.isSome) :
    endTransmit s = serveWaiting { s with link := beginNext { s.link with sending := none } } := by
  obtain ⟨x, line⟩ := Option.isSome_iff_exists.mp busy
  unfold endTransmit; rw [line]

theorem endTransmit_reply {r : PanelFrame} (busy : s.link.sending.isSome) (waits : s.link.reply = some r) :
    endTransmit s = serveWaiting { s with link := { s.link with sending := some (sendingOf r), reply := none } } := by
  rw [endTransmit_busy busy, beginNext_reply (l := { s.link with sending := none }) rfl waits]

theorem endTransmit_notice {n : Notice} {rest : List Notice} (idle : s.link.serving = false) (busy : s.link.sending.isSome)
    (empty : s.link.reply = none) (unbuffered : s.link.buffer = []) (queued : s.link.notices = n :: rest) :
    endTransmit s = { s with link := { s.link with sending := some (sendingOf (noticeFrame n)), notices := rest } } := by
  rw [endTransmit_busy busy, beginNext_notice (l := { s.link with sending := none }) rfl empty idle queued]
  exact serveWaiting_none unbuffered

theorem endTransmit_idle (busy : s.link.sending.isSome) (empty : s.link.reply = none) (unbuffered : s.link.buffer = [])
    (quiet : s.link.notices = []) : endTransmit s = { s with link := { s.link with sending := none } } := by
  rw [endTransmit_busy busy, beginNext_idle (l := { s.link with sending := none }) rfl empty quiet]
  exact serveWaiting_none unbuffered

end Waiting

end Sys2Proof.Machine

namespace Sys2Proof.Proofs
open Sys2Proof Sys2Proof.Machine

/-- Settles O10: the mask, the full queue, and the transmitter's choice with the notice at the queue's tail. -/
theorem offeredNotice : Obligations.OfferedNotice := by
  unfold Obligations.OfferedNotice
  refine fun n l => ⟨offerLink_masked, fun passes => ⟨offerLink_full passes, fun room => ?_⟩⟩
  rw [offerLink_joins passes room]
  refine ⟨fun busy => beginNext_busy (l := { l with notices := l.notices ++ [n] }) busy,
    beginNext_waits (l := { l with notices := l.notices ++ [n] }), fun free empty idle quiet => ?_,
    fun m rest free empty idle queued => ?_⟩
  · rw [quiet]
    exact beginNext_notice (l := { l with notices := [n] }) free empty idle rfl
  · rw [queued]
    exact beginNext_notice (l := { l with notices := m :: (rest ++ [n]) }) free empty idle rfl

/-- Settles O9: the transmitter's choice at the end of a frame, and then the first waiting request. -/
theorem transmitFrameEnd : Obligations.TransmitFrameEnd := by
  unfold Obligations.TransmitFrameEnd
  intro s idle
  rw [exec_transmitFrameEnd]
  refine ⟨fun free => congrArg _ (endTransmit_free free),
    fun busy empty unbuffered quiet => congrArg _ (endTransmit_idle busy empty unbuffered quiet),
    fun n rest busy empty unbuffered queued => congrArg _ (endTransmit_notice idle busy empty unbuffered queued),
    fun r busy waits unbuffered => ?_, fun r q busy waits one => ?_, fun r q rest busy waits queue => ?_⟩
  · rw [endTransmit_reply busy waits, serveWaiting_none]
    exact unbuffered
  · rw [endTransmit_reply busy waits, serveWaiting_first (q := q) (rest := [])]
    exacts [rfl, rfl, one]
  · obtain ⟨n, f, loss, -, -, -, reply⟩ := serveWith_link (r := q) (act := frameAct q)
      (s := { s with link := { s.link with sending := some (sendingOf r), reply := none, buffer := rest } })
      (frameAct_state q) rfl
    refine ⟨_, rfl, ?_⟩
    rw [endTransmit_reply busy waits, serveWaiting_first (q := q) (rest := rest)]
    exacts [(by rw [reply rfl]; exact ⟨rfl, rfl, rfl⟩), rfl, queue]

end Sys2Proof.Proofs
end

section
/-! Every step keeps the limits and the rest positions of the panel link (R161, R163, R167, R169). -/

namespace Sys2Proof.Machine

/-! ## Limits and rest positions of a link -/

/-- A link keeps its limits (R161, R163, R167). -/
structure LinkFits (l : Link) : Prop where
  buffer : l.buffer.length ≤ Config.bufferCapacity
  notices : l.notices.length ≤ Config.noticeCapacity
  gathered : l.gathered.length ≤ Config.gatherLimit
  hunting : l.hunt = .hunting → l.gathered = [] ∧ l.escape = false

/-- A link rests: the transmitter leaves nothing to send behind, and a request waits only behind a reply (R163, R169). -/
structure LinkRests (l : Link) : Prop where
  idle : l.sending = none → l.reply = none ∧ l.notices = []
  waiting : l.reply = none → l.buffer = []
  serving : l.serving = false

theorem linkSound_iff {s : State} : LinkSound s ↔ LinkFits s.link ∧ LinkRests s.link :=
  ⟨fun ⟨buffer, notices, gathered, hunting, idle, waiting, serving⟩ =>
      ⟨⟨buffer, notices, gathered, hunting⟩, ⟨idle, waiting, serving⟩⟩,
    fun ⟨⟨buffer, notices, gathered, hunting⟩, ⟨idle, waiting, serving⟩⟩ =>
      ⟨buffer, notices, gathered, hunting, idle, waiting, serving⟩⟩

/-- The link alone matters. -/
theorem LinkSound.congr {s t : State} (h : LinkSound s) (link : t.link = s.link) : LinkSound t := by
  rw [linkSound_iff, link]; exact linkSound_iff.mp h

/-- What is left behind the first place of a queue keeps the queue's limit. -/
theorem rest_fits {α : Type} {queue rest : List α} {a : α} {limit : Nat} (first : queue = a :: rest)
    (fits : queue.length ≤ limit) : rest.length ≤ limit := by
  rw [first, List.length_cons] at fits
  exact Nat.le_of_succ_le fits

/-! ## Notices -/

theorem LinkFits.beginNext {l : Link} (h : LinkFits l) : LinkFits (beginNext l) := by
  rcases beginNext_cases l with e | ⟨r, -, -, e⟩ | ⟨n, rest, -, -, -, queued, e⟩
  · rw [e]; exact h
  · rw [e]; exact ⟨h.buffer, h.notices, h.gathered, h.hunting⟩
  · rw [e]; exact ⟨h.buffer, rest_fits queued h.notices, h.gathered, h.hunting⟩

/-- An offered notice keeps the limits, and a link at rest begins it or lets it wait behind the frame on the line (R167,
R169). -/
theorem offerLink_rests {l : Link} (n : Notice) (h : LinkFits l ∧ LinkRests l) :
    LinkFits (offerLink n l) ∧ LinkRests (offerLink n l) := by
  obtain ⟨fits, rests⟩ := h
  rcases offerLink_cases n l with e | e | ⟨room, e⟩
  · rw [e]; exact ⟨fits, rests⟩
  · rw [e]; exact ⟨⟨fits.buffer, fits.notices, fits.gathered, fits.hunting⟩, ⟨rests.idle, rests.waiting, rests.serving⟩⟩
  · have joined : LinkFits { l with notices := l.notices ++ [n] } :=
      ⟨fits.buffer, by rw [List.length_append]; exact room, fits.gathered, fits.hunting⟩
    rw [e]
    refine ⟨joined.beginNext, ?_⟩
    by_cases busy : l.sending.isSome
    · rw [beginNext_busy (l := { l with notices := l.notices ++ [n] }) busy]
      exact ⟨fun free => absurd busy (Option.not_isSome_iff_eq_none.mpr free), rests.waiting, rests.serving⟩
    · have free := Option.not_isSome_iff_eq_none.mp busy
      obtain ⟨empty, quiet⟩ := rests.idle free
      rw [quiet, List.nil_append, beginNext_notice (l := { l with notices := [n] }) free empty rests.serving rfl]
      exact ⟨nofun, rests.waiting, rests.serving⟩

/-- An event of the part's own keeps the link sound, for it offers notices alone, or is a hard reset. -/
theorem LinkSound.event {s : State} (h : LinkSound s) (c : Instr) : LinkSound (eventOf c s) := by
  by_cases o : ownerOf c = .reset
  · obtain ⟨speed, pairEn, role, rfl⟩ := ownerOf_reset o
    exact hardReset_link ..
  · exact linkSound_iff.mpr ((eventOf_offers s o).keeps (P := fun l => LinkFits l ∧ LinkRests l) (linkSound_iff.mp h)
      fun n l => offerLink_rests n)

/-! ## Service -/

section Service
variable {s : State} {r : PanelFrame} {act : State → Served}

/-- A request served from an empty reply slot: its reply is on the line, or in the slot behind the frame on the line. -/
theorem serveWith_sound (fits : LinkFits s.link) (empty : s.link.reply = none)
    (unbuffered : s.link.sending = none → s.link.buffer = []) (acts : ∀ u, ∃ i, (act u).state = (requestAct i u).state) :
    LinkSound (serveWith r act s) := by
  obtain ⟨q, f, loss, notices, -, begun, waits⟩ := serveWith_link (r := r) acts empty
  rw [linkSound_iff]
  cases line : s.link.sending with
  | none =>
    rw [begun line]
    exact ⟨⟨fits.buffer, notices fits.notices, fits.gathered, fits.hunting⟩, ⟨nofun, fun _ => unbuffered line, rfl⟩⟩
  | some x =>
    rw [waits (by rw [line]; rfl)]
    exact ⟨⟨fits.buffer, notices fits.notices, fits.gathered, fits.hunting⟩,
      ⟨fun free => absurd (line.symm.trans free) nofun, nofun, rfl⟩⟩

theorem LinkSound.discard (h : LinkSound s) : LinkSound (discardFrame s) :=
  ⟨h.buffer, h.notices, h.gathered, h.hunting, h.idle, h.waiting, h.serving⟩

theorem readyToServe_iff : readyToServe s = true ↔ s.link.reply = none ∧ s.link.buffer = [] := by
  simp [readyToServe]

/-- A complete request is served at once, or waits behind a reply, or is discarded (R163). -/
theorem LinkSound.take (h : LinkSound s) (acts : ∀ u, ∃ i, (act u).state = (requestAct i u).state) :
    LinkSound (takeRequest r act s) := by
  unfold takeRequest; split
  · next ready =>
    obtain ⟨empty, unbuffered⟩ := readyToServe_iff.mp ready
    exact serveWith_sound (linkSound_iff.mp h).1 empty (fun _ => unbuffered) acts
  · next busy =>
    have full : s.link.reply ≠ none := fun empty => busy (readyToServe_iff.mpr ⟨empty, h.waiting empty⟩)
    unfold bufferRequest; split
    · next room =>
      exact ⟨by rw [List.length_append]; exact room, h.notices, h.gathered, h.hunting, h.idle,
        fun empty => absurd empty full, h.serving⟩
    · exact h.discard

end Service

/-! ## The receiver (R161, R162) -/

section Receiver
variable {s : State} (h : LinkSound s)
include h

theorem LinkSound.gathering {bytes : List Byte} (escape : Bool) (fits : bytes.length ≤ Config.gatherLimit) :
    LinkSound (setReceiver .gathering bytes escape s) :=
  ⟨h.buffer, h.notices, fits, nofun, h.idle, h.waiting, h.serving⟩

theorem LinkSound.hunts : LinkSound (setReceiver .hunting [] false s) :=
  ⟨h.buffer, h.notices, Nat.zero_le _, fun _ => ⟨rfl, rfl⟩, h.idle, h.waiting, h.serving⟩

theorem LinkSound.gatherByte (b : Byte) : LinkSound (gatherByte b s) := by
  unfold Machine.gatherByte; dsimp only; split
  · exact h.hunts.discard
  · next fits => exact h.gathering false (Nat.not_lt.mp fits)

theorem LinkSound.judgeFrame (bytes : List Byte) : LinkSound (judgeFrame bytes s) := by
  unfold Machine.judgeFrame; split
  · exact h
  · split
    · exact h.take (frameAct_state _)
    · exact h.discard

theorem LinkSound.gatherStep (b : Byte) : LinkSound (gatherStep b s) := by
  have opened := h.gathering (bytes := []) false (Nat.zero_le _)
  unfold Machine.gatherStep; split
  · split
    · exact opened.discard
    · exact opened.judgeFrame _
  · split
    · exact h.gatherByte _
    · split
      · exact h.gathering true h.gathered
      · exact h.gatherByte _

theorem LinkSound.receive (b : Byte) (e : Bool) : LinkSound (receiveByte b e s) := by
  unfold receiveByte; split
  · split
    · exact h.gathering false (Nat.zero_le _)
    · exact h
  · split
    · exact h.hunts.discard
    · exact h.gatherStep b

/-! ## The end of a frame on the line (R163, R169) -/

/-- The next frame is begun; a request that waits is then behind the reply on the line, and is served. -/
theorem LinkSound.transmit : LinkSound (endTransmit s) := by
  cases line : s.link.sending with
  | none => rw [endTransmit_free line]; exact h
  | some x =>
    have busy : s.link.sending.isSome := by rw [line]; rfl
    cases slot : s.link.reply with
    | some r =>
      rw [endTransmit_reply busy slot]
      cases buffer : s.link.buffer with
      | nil =>
        rw [serveWaiting_none]
        exacts [⟨h.buffer, h.notices, h.gathered, h.hunting, nofun, fun _ => buffer, h.serving⟩, buffer]
      | cons q rest =>
        rw [serveWaiting_first (q := q) (rest := rest)]
        exacts [serveWith_sound ⟨rest_fits buffer h.buffer, h.notices, h.gathered, h.hunting⟩ rfl nofun (frameAct_state q),
          rfl, buffer]
    | none =>
      have unbuffered := h.waiting slot
      cases queue : s.link.notices with
      | nil =>
        rw [endTransmit_idle busy slot unbuffered queue]
        exact ⟨h.buffer, h.notices, h.gathered, h.hunting, fun _ => ⟨slot, queue⟩, h.waiting, h.serving⟩
      | cons n rest =>
        rw [endTransmit_notice h.serving busy slot unbuffered queue]
        exact ⟨h.buffer, rest_fits queue h.notices, h.gathered, h.hunting, nofun, h.waiting, h.serving⟩

end Receiver

/-- Every command keeps the link sound. -/
theorem LinkSound.exec {c : Instr} {s t : State} (h : LinkSound s) (e : exec c s = .next t) : LinkSound t := by
  cases relays : relaysRequests c with
  | false =>
    rcases exec_own_or_request c s relays with x | x <;> rw [x] at e <;> rw [← Host.Outcome.next.inj e]
    · exact h.event c
    · exact h.take fun u => ⟨c, rfl⟩
  | true =>
    cases c
    case panelByteReceived b err => rw [← Host.Outcome.next.inj e]; exact h.receive b err
    case transmitFrameEnd => rw [← Host.Outcome.next.inj e]; exact h.transmit
    case unknownType => rw [← Host.Outcome.next.inj e]; exact h.take (frameAct_state _)
    all_goals exact absurd relays Bool.false_ne_true

end Sys2Proof.Machine

namespace Sys2Proof.Proofs
open Sys2Proof Sys2Proof.Machine

/-- Settles O55: the clock leaves the link, and every command keeps it sound, with what waits in the queue of commands taken
off. -/
theorem stepKeepsLink : Obligations.StepKeepsLink := by
  unfold Obligations.StepKeepsLink
  intro s t h e
  unfold step at e; split at e
  · rw [← Host.Outcome.next.inj e]; exact h.congr rfl
  · next rest _ => exact LinkSound.exec (s := { s with pending := rest }) (h.congr rfl) e

end Sys2Proof.Proofs
end

section
/-! The frames of requests: each is read back as its request, a frame that is read as a request is that request's, and the
type alone tells a wrong length from an unknown type (R164, R172). -/

namespace Sys2Proof

/-! ## Fields -/

/-- A byte sent behind a field is the low byte of both together (R171). -/
theorem toNat_append_byte {n : Nat} (x : BitVec n) (b : Byte) : (x ++ b).toNat = x.toNat * 256 + b.toNat := by
  rw [BitVec.toNat_append, Nat.shiftLeft_eq, Nat.mul_comm, ← Nat.two_pow_add_eq_or_of_lt b.isLt]

theorem serialOf_toNat (a b c d : Byte) :
    (serialOf a b c d).toNat = ((a.toNat * 256 + b.toNat) * 256 + c.toNat) * 256 + d.toNat := by
  unfold serialOf; rw [toNat_append_byte, toNat_append_byte, toNat_append_byte]

/-- A serial is read back from its four bytes (R171). -/
@[simp] theorem serialOf_bytes (s : Serial) :
    serialOf (s.extractLsb' 24 8) (s.extractLsb' 16 8) (s.extractLsb' 8 8) (s.extractLsb' 0 8) = s := by
  apply BitVec.eq_of_toNat_eq
  rw [serialOf_toNat]
  simp only [BitVec.extractLsb'_toNat, Nat.shiftRight_eq_div_pow]
  have := s.isLt
  omega

/-- The bytes of a serial are those it is read from (R171). -/
@[simp] theorem serialBytes_of (a b c d : Byte) : serialBytes (serialOf a b c d) = [a, b, c, d] := by
  have byte (k : Nat) (x : Byte) (h : (serialOf a b c d).toNat / 2 ^ k % 256 = x.toNat) :
      (serialOf a b c d).extractLsb' k 8 = x := by
    apply BitVec.eq_of_toNat_eq
    rw [BitVec.extractLsb'_toNat, Nat.shiftRight_eq_div_pow]; exact h
  rw [serialOf_toNat] at byte
  have := a.isLt; have := b.isLt; have := c.isLt; have := d.isLt
  unfold serialBytes
  rw [byte 24 a (by omega), byte 16 b (by omega), byte 8 c (by omega), byte 0 d (by omega)]

theorem byte_eq {b : Byte} {n : Nat} (h : b.toNat = n) : b = BitVec.ofNat 8 n := by
  rw [← h, BitVec.ofNat_toNat, BitVec.setWidth_eq]

theorem entriesOf_bytes (es : List (Byte × Byte)) : entriesOf (entryBytes es) = some es := by
  induction es with
  | nil => rfl
  | cons e es ih =>
    show (entriesOf (entryBytes es)).map ((e.1, e.2) :: ·) = some (e :: es)
    rw [ih]; rfl

theorem entryBytes_of {payload : List Byte} {es : List (Byte × Byte)} (h : entriesOf payload = some es) :
    entryBytes es = payload := by
  induction payload using entriesOf.induct generalizing es with
  | case1 => cases h; rfl
  | case2 => cases h
  | case3 z l rest ih =>
    obtain ⟨tail, rest_es, rfl⟩ := Option.map_eq_some_iff.mp h
    show z :: l :: entryBytes tail = _
    rw [ih rest_es]

/-! ## Payloads of a fixed length (R164) -/

section Payload
variable {f : PanelFrame} {j : Instr} {c : ReplyCode}

theorem noPayload_ok {i : Instr} (h : noPayload f i = .ok j) : f.payload = [] ∧ i = j := by
  unfold noPayload at h; split at h
  · next e => exact ⟨e, Except.ok.inj h⟩
  · cases h

theorem onePayload_ok {i : Byte → Instr} (h : onePayload f i = .ok j) : ∃ a, f.payload = [a] ∧ i a = j := by
  unfold onePayload at h; split at h
  · next e => exact ⟨_, e, Except.ok.inj h⟩
  · cases h

theorem twoPayload_ok {i : Byte → Byte → Instr} (h : twoPayload f i = .ok j) : ∃ a b, f.payload = [a, b] ∧ i a b = j := by
  unfold twoPayload at h; split at h
  · next e => exact ⟨_, _, e, Except.ok.inj h⟩
  · cases h

theorem threePayload_ok {i : Byte → Byte → Byte → Instr} (h : threePayload f i = .ok j) :
    ∃ a b d, f.payload = [a, b, d] ∧ i a b d = j := by
  unfold threePayload at h; split at h
  · next e => exact ⟨_, _, _, e, Except.ok.inj h⟩
  · cases h

theorem noPayload_error {i : Instr} (h : noPayload f i = .error c) : c = .badLength := by
  unfold noPayload at h; split at h <;> cases h; rfl

theorem onePayload_error {i : Byte → Instr} (h : onePayload f i = .error c) : c = .badLength := by
  unfold onePayload at h; split at h <;> cases h; rfl

theorem twoPayload_error {i : Byte → Byte → Instr} (h : twoPayload f i = .error c) : c = .badLength := by
  unfold twoPayload at h; split at h <;> cases h; rfl

theorem threePayload_error {i : Byte → Byte → Byte → Instr} (h : threePayload f i = .error c) : c = .badLength := by
  unfold threePayload at h; split at h <;> cases h; rfl

end Payload

/-! ## Encode and decode -/

/-- The frame of a request is read back as the request (R164). -/
theorem decode_encode {i : Instr} {f : PanelFrame} (listed : ∀ type tag payload, i ≠ .unknownType type tag payload)
    (h : encodeRequest i = some f) : decodeRequest f = .ok i := by
  cases i
  case unknownType => exact absurd rfl (listed _ _ _)
  case setAisle => cases h; simp [decodeRequest]
  case zoneReadings => cases h; simp [decodeRequest, entriesOf_bytes]
  case setExit | placeHead | setTiming | blockAisle | openAisle | exitBias | setNoticeFilter =>
    cases h; simp [decodeRequest, twoPayload, threePayload, serialBytes]
  all_goals cases h
  all_goals rfl

/-- A frame that is read as a request is that request's frame (R164). -/
theorem encode_decode {f : PanelFrame} {i : Instr} (h : decodeRequest f = .ok i) :
    encodeRequest i = some f ∧ ∀ type tag payload, i ≠ .unknownType type tag payload := by
  obtain ⟨type, tag, payload⟩ := f
  unfold decodeRequest at h; dsimp only at h
  split at h
  case h_35 => cases h
  all_goals obtain rfl := byte_eq ‹_›
  case h_1 | h_11 | h_12 | h_13 | h_14 | h_21 | h_26 | h_29 | h_30 | h_31 | h_32 | h_34 =>
    obtain ⟨rfl, rfl⟩ := noPayload_ok h
    exact ⟨rfl, fun _ _ _ => nofun⟩
  case h_7 | h_16 | h_22 | h_23 | h_24 | h_25 | h_27 | h_28 =>
    obtain ⟨a, rfl, rfl⟩ := onePayload_ok h
    exact ⟨rfl, fun _ _ _ => nofun⟩
  case h_9 | h_19 =>
    obtain ⟨a, b, rfl, rfl⟩ := twoPayload_ok h
    exact ⟨rfl, fun _ _ _ => nofun⟩
  case h_17 | h_18 | h_33 =>
    obtain ⟨a, b, rfl, rfl⟩ := twoPayload_ok h
    exact ⟨by simp [encodeRequest], fun _ _ _ => nofun⟩
  case h_10 | h_20 =>
    obtain ⟨a, b, d, rfl, rfl⟩ := threePayload_ok h
    exact ⟨by simp [encodeRequest], fun _ _ _ => nofun⟩
  case h_15 =>
    split at h
    · next es e =>
      cases h
      exact ⟨by simp [encodeRequest, entryBytes_of e], fun _ _ _ => nofun⟩
    · cases h
  all_goals
    split at h
    · cases h
      exact ⟨by simp [encodeRequest], fun _ _ _ => nofun⟩
    · cases h

/-- Only the type and the length are checked before the owning block (R164): a type of Table 11.2 has a wrong length. -/
theorem decodeRequest_error {f : PanelFrame} {c : ReplyCode} (h : decodeRequest f = .error c) :
    c = if requestTypes.contains f.type then .badLength else .unknownType := by
  obtain ⟨type, tag, payload⟩ := f
  unfold decodeRequest at h; dsimp only at h ⊢
  split at h
  case h_35 =>
    have unlisted : ¬ type ∈ requestTypes := by
      simp only [requestTypes, List.mem_cons, List.not_mem_nil, ← BitVec.toNat_inj]
      simp_all
    cases h; simp [unlisted]
  all_goals
    obtain rfl := byte_eq ‹_›
    refine Eq.trans (b := .badLength) ?_ (if_pos (by decide)).symm
  case h_1 | h_11 | h_12 | h_13 | h_14 | h_21 | h_26 | h_29 | h_30 | h_31 | h_32 | h_34 => exact noPayload_error h
  case h_7 | h_16 | h_22 | h_23 | h_24 | h_25 | h_27 | h_28 => exact onePayload_error h
  case h_9 | h_19 | h_17 | h_18 | h_33 => exact twoPayload_error h
  case h_10 | h_20 => exact threePayload_error h
  all_goals split at h <;> cases h; rfl

theorem listed_of_decode {f : PanelFrame} {i : Instr} (h : decodeRequest f = .ok i) : requestTypes.contains f.type = true := by
  unfold decodeRequest at h
  split at h
  case h_35 => cases h
  all_goals rw [byte_eq (b := f.type) ‹_›]; decide

/-- A type that Table 11.2 does not list is UNKNOWN_TYPE, and no other frame is (R164). -/
theorem decodeRequest_unknown (type tag : Byte) (payload : List Byte) :
    requestTypes.contains type = false ↔ decodeRequest ⟨type, tag, payload⟩ = .error .unknownType := by
  constructor
  · intro unlisted
    cases e : decodeRequest ⟨type, tag, payload⟩ with
    | ok i => exact absurd (listed_of_decode e) (ne_true_of_eq_false unlisted)
    | error c => rw [decodeRequest_error e, unlisted]; rfl
  · intro e
    have code := decodeRequest_error e
    cases listed : requestTypes.contains type with
    | false => rfl
    | true => dsimp only at code; rw [listed] at code; cases code

end Sys2Proof

namespace Sys2Proof.Machine

/-! ## Requests that reach the part -/

theorem frameAct_ok {f : PanelFrame} {i : Instr} (h : decodeRequest f = .ok i) : frameAct f = requestAct i := by
  unfold frameAct; rw [h]

theorem frameAct_error {f : PanelFrame} {c : ReplyCode} (h : decodeRequest f = .error c) : frameAct f = refuse c := by
  unfold frameAct; rw [h]

/-- What a request's own block does with it is what its frame asks for (R164). -/
theorem exec_offered {i : Instr} {f : PanelFrame} {s : State} (h : encodeRequest i = some f)
    (listed : ∀ type tag payload, i ≠ .unknownType type tag payload)
    (taken : exec i s = .next (takeRequest (requestFrame i) (requestAct i) s)) : exec i s = .next (offerRequest f s) := by
  rw [taken, ← frameAct_ok (decode_encode listed h)]
  unfold requestFrame; rw [h]; rfl

/-- A request command is the arrival of its frame (R163, R164). -/
theorem exec_request {i : Instr} {f : PanelFrame} (h : encodeRequest i = some f) (s : State) :
    exec i s = .next (offerRequest f s) := by
  cases i
  case unknownType => cases h; rfl
  all_goals cases h
  all_goals exact exec_offered rfl (fun _ _ _ => nofun) rfl

/-- A request that cannot be served at once joins the receive buffer, or is discarded where two wait (R163). -/
theorem offerRequest_waits {s : State} (busy : readyToServe s = false) (f : PanelFrame) :
    offerRequest f s
      = if s.link.buffer.length < 2 then { s with link := { s.link with buffer := s.link.buffer ++ [f] } }
        else { s with link := { s.link with discarded := true } } := by
  unfold offerRequest takeRequest; rw [busy]; rfl

/-- A request that can be served at once is served (R163). -/
theorem offerRequest_ready {s : State} (ready : readyToServe s = true) (f : PanelFrame) :
    offerRequest f s = serveWith f (frameAct f) s := if_pos ready

/-! ## The reply (R165) -/

/-- No request but RESTART writes the frame discarded flag (R162). -/
theorem requestAct_discarded {i : Instr} (notRestart : ∀ tag, i ≠ .restart tag) (s : State) :
    (requestAct i s).state.link.discarded = s.link.discarded := by
  cases w : writesLink i with
  | false =>
    exact (requestAct_offers s w).keeps (P := fun l => l.discarded = s.link.discarded) rfl
      fun n l h => (offerLink_discarded n l).trans h
  | true =>
    cases i
    case restart => exact absurd rfl (notRestart _)
    case setNoticeFilter =>
      show (setNoticeFilter _ s).state.link.discarded = s.link.discarded
      unfold setNoticeFilter; split <;> rfl
    case clearNoticeLoss => rfl
    all_goals exact absurd w nofun

theorem frameAct_discarded {f : PanelFrame} (notRestart : f.type ≠ 0x2A) (s : State) :
    (frameAct f s).state.link.discarded = s.link.discarded := by
  cases e : decodeRequest f with
  | ok i =>
    rw [frameAct_ok e]
    refine requestAct_discarded (fun tag restart => notRestart ?_) s
    have frame := (encode_decode e).1
    rw [restart] at frame
    rw [← Option.some.inj frame]
  | error c => rw [frameAct_error e]; rfl

end Sys2Proof.Machine

namespace Sys2Proof.Proofs
open Sys2Proof Sys2Proof.Machine

/-- Settles O4: encoding and decoding are inverse on the requests of Table 11.2, and the type tells the rest. -/
theorem requestFramesRoundTrip : Obligations.RequestFramesRoundTrip := by
  unfold Obligations.RequestFramesRoundTrip
  exact ⟨fun _ _ => decode_encode, fun _ _ => encode_decode, decodeRequest_unknown⟩

/-- Settles O7: a frame sent under a type of its own is served as what it is read as, and every request waits alike. -/
theorem requestsServedOrWait : Obligations.RequestsServedOrWait := by
  unfold Obligations.RequestsServedOrWait
  refine ⟨fun type tag payload s => ⟨fun i e => ?_, fun code e => ⟨decodeRequest_error e, fun ready => ?_, fun busy => ?_⟩⟩,
    fun i f s e busy => ?_⟩
  · rw [exec_request (encode_decode e).1, exec_unknownType]
  · exact refuses_of rfl (exec_unknownType type tag payload s) ready (by rw [frameAct_error e])
  · rw [exec_unknownType, offerRequest_waits busy]
  · rw [exec_request e, offerRequest_waits busy]

/-- Settles O8: the service of a request forms its reply from what its effect leaves, and the transmitter begins it or lets
it wait. -/
theorem readyRequestAnswered : Obligations.ReadyRequestAnswered := by
  unfold Obligations.ReadyRequestAnswered
  rintro i f s e notRestart ⟨ready, -⟩
  obtain ⟨empty, -⟩ := readyToServe_iff.mp ready
  obtain ⟨q, filter, loss, -, mark, free, busy⟩ := serveWith_link (r := f) (frameAct_state f) empty
  have flag : (frameAct f (begun s)).state.link.discarded = s.link.discarded := frameAct_discarded notRestart (begun s)
  have served : exec i s = .next (serveWith f (frameAct f) s) := by rw [exec_request e, offerRequest_ready ready]
  have left : ∃ x slot, (serveWith f (frameAct f) s).link = { s.link with
      sending := x, reply := slot, notices := q, filter := filter, lossMark := loss, discarded := false
      serving := false } := by
    by_cases line : s.link.sending.isSome
    · exact ⟨_, _, busy line⟩
    · exact ⟨_, _, free (Option.not_isSome_iff_eq_none.mp line)⟩
  obtain ⟨x, slot, left⟩ := left
  refine ⟨_, (frameAct f (begun s)).code, if (frameAct f (begun s)).code = .done then (frameAct f (begun s)).data else [],
    served, ?_, fun notDone => if_neg notDone, ?_⟩
  · have marks : (serveWith f (frameAct f) s).link.lossMark = (frameAct f (begun s)).state.link.lossMark := by
      rw [left, mark]
    rw [marks, ← flag]
    exact ⟨fun line => by rw [free line]; exact ⟨rfl, rfl⟩, fun line => by rw [busy line]; exact ⟨rfl, rfl⟩⟩
  · rw [left]; exact ⟨rfl, rfl, rfl, rfl, rfl, rfl, rfl⟩

/-- Settles O11: the effects of the two requests on the link. -/
theorem filterAndLossRequests : Obligations.FilterAndLossRequests := by
  unfold Obligations.FilterAndLossRequests
  refine fun tag mask s ready => ⟨fun low => ?_, fun high => ?_, ?_⟩
  · exact servesFrom_by rfl (exec_setNoticeFilter tag mask s) ready (if_pos low) rfl rfl rfl fun _ => rfl
  · exact refuses_by rfl (exec_setNoticeFilter tag mask s) ready (if_neg high)
  · exact servesFrom_by rfl (exec_clearNoticeLoss tag s) ready rfl rfl rfl rfl fun _ => rfl

end Sys2Proof.Proofs
end

section
/-! The receiver, byte by byte, and the bytes of a whole request (R161, R162, R169). -/

namespace Sys2Proof

/-! ## Unstuffed frames (R162, R172) -/

/-- A frame is read back from its unstuffed bytes (R162). -/
theorem PanelFrame.ofUnstuffed_unstuffed (f : PanelFrame) : PanelFrame.ofUnstuffed f.unstuffed = some f := by
  simp [PanelFrame.unstuffed, PanelFrame.body, PanelFrame.ofUnstuffed, halfBytes]

/-- The bytes that are read as a frame are that frame's (R162). -/
theorem PanelFrame.unstuffed_of_ofUnstuffed {bytes : List Byte} {f : PanelFrame} (h : PanelFrame.ofUnstuffed bytes = some f) :
    f.unstuffed = bytes := by
  unfold PanelFrame.ofUnstuffed at h; split at h
  · next type tag rest =>
    dsimp only at h; split at h
    · next crc =>
      cases h
      have whole := List.take_append_drop (rest.length - 2) rest
      rw [crc.2] at whole
      exact congrArg (fun l => type :: tag :: l) whole
    · cases h
  · cases h

theorem PanelFrame.length_unstuffed (f : PanelFrame) : f.unstuffed.length = f.payload.length + 4 := by
  simp [PanelFrame.unstuffed, PanelFrame.body, halfBytes]

/-- The frame of a request that can reach the part has a payload of at most 252 bytes, so the receiver gathers it whole
(R161, R162). -/
theorem payload_of_wellFormed {i : Instr} {f : PanelFrame} (ok : i.wellFormed = true) (h : encodeRequest i = some f) :
    f.payload.length ≤ 252 := by
  cases i
  case unknownType =>
    cases h
    exact of_decide_eq_true (Bool.and_eq_true_iff.mp ok).1
  case setScript =>
    cases h
    exact Nat.add_le_add_right (of_decide_eq_true ok) 2
  case zoneReadings tag es =>
    cases h
    have few : es.length ≤ 126 := of_decide_eq_true ok
    simp [entryBytes]; omega
  all_goals cases h
  all_goals simp [serialBytes]

end Sys2Proof

namespace Sys2Proof.Machine

/-! ## One byte -/

section Byte
variable {s : State} {b : Byte}

theorem receiveByte_hunting (hunting : s.link.hunt = .hunting) (framingError : Bool) :
    receiveByte b framingError s = if b = Config.flagByte ∧ !framingError then setReceiver .gathering [] false s else s := by
  unfold receiveByte; rw [hunting]

theorem receiveByte_framing (gathering : s.link.hunt = .gathering) :
    receiveByte b true s = discardFrame (setReceiver .hunting [] false s) := by
  unfold receiveByte; rw [gathering]; rfl

theorem receiveByte_gathering (gathering : s.link.hunt = .gathering) : receiveByte b false s = gatherStep b s := by
  unfold receiveByte; rw [gathering]; rfl

theorem gatherStep_aborts (flag : b = Config.flagByte) (escape : s.link.escape = true) :
    gatherStep b s = discardFrame (setReceiver .gathering [] false s) := by
  unfold gatherStep; rw [if_pos flag, if_pos escape]

theorem gatherStep_closes (flag : b = Config.flagByte) (escape : s.link.escape = false) :
    gatherStep b s = judgeFrame s.link.gathered (setReceiver .gathering [] false s) := by
  unfold gatherStep; rw [if_pos flag, if_neg (ne_true_of_eq_false escape)]

theorem gatherStep_escaped (notFlag : b ≠ Config.flagByte) (escape : s.link.escape = true) :
    gatherStep b s = gatherByte (b ^^^ Config.escapeXor) s := by
  unfold gatherStep; rw [if_neg notFlag, if_pos escape]

theorem gatherStep_escape (esc : b = Config.escapeByte) (escape : s.link.escape = false) :
    gatherStep b s = setReceiver .gathering s.link.gathered true s := by
  unfold gatherStep; rw [if_neg (by rw [esc]; decide), if_neg (ne_true_of_eq_false escape)]; exact if_pos esc

theorem gatherStep_plain (notFlag : b ≠ Config.flagByte) (notEscape : b ≠ Config.escapeByte) (escape : s.link.escape = false) :
    gatherStep b s = gatherByte b s := by
  unfold gatherStep; rw [if_neg notFlag, if_neg (ne_true_of_eq_false escape)]; exact if_neg notEscape

theorem gatherByte_room (room : s.link.gathered.length < 256) :
    gatherByte b s = setReceiver .gathering (s.link.gathered ++ [b]) false s :=
  if_neg (by rw [List.length_append]; exact Nat.not_lt.mpr room)

theorem gatherByte_full (full : s.link.gathered.length = 256) :
    gatherByte b s = discardFrame (setReceiver .hunting [] false s) :=
  if_pos (by rw [List.length_append, full]; exact Nat.lt_succ_self 256)

theorem judgeFrame_empty : judgeFrame [] s = s := rfl

theorem judgeFrame_bad {bytes : List Byte} (some? : bytes ≠ []) (bad : ∀ f : PanelFrame, f.unstuffed ≠ bytes) :
    judgeFrame bytes s = discardFrame s := by
  unfold judgeFrame; rw [if_neg (by rw [List.isEmpty_iff]; exact some?)]
  split
  · next f e => exact absurd (PanelFrame.unstuffed_of_ofUnstuffed e) (bad f)
  · rfl

theorem judgeFrame_frame (f : PanelFrame) : judgeFrame f.unstuffed s = offerRequest f s := by
  unfold judgeFrame; rw [PanelFrame.ofUnstuffed_unstuffed]; rfl

end Byte

/-! ## The bytes of a frame -/

/-- The part after bytes received one after another without a framing error (R161). -/
def received (bytes : List Byte) (s : State) : State := bytes.foldl (fun s b => receiveByte b false s) s

theorem received_cons (b : Byte) (bytes : List Byte) (s : State) :
    received (b :: bytes) s = received bytes (receiveByte b false s) := rfl

theorem received_append (a b : List Byte) (s : State) : received (a ++ b) s = received b (received a s) := List.foldl_append

theorem feedBytes_eq (bytes : List Byte) (s : State) : feedBytes bytes s = .next (received bytes s) := by
  induction bytes generalizing s with
  | nil => rfl
  | cons b bytes ih => exact ih (receiveByte b false s)

/-- The flag that opens a frame brings GATHERING with nothing gathered, from rest as from HUNTING (R161). -/
theorem receiveByte_opens {s : State} (empty : s.link.gathered = []) (escape : s.link.escape = false) :
    receiveByte Config.flagByte false s = setReceiver .gathering [] false s := by
  cases hunt : s.link.hunt with
  | hunting => exact receiveByte_hunting hunt false
  | gathering => rw [receiveByte_gathering hunt, gatherStep_closes rfl escape, empty, judgeFrame_empty]

section Gathering
variable {s : State} (gathering : s.link.hunt = .gathering) (escape : s.link.escape = false)
include gathering escape

/-- A byte that is stuffed and received is gathered as it was (R161, R169). -/
theorem received_stuffByte (b : Byte) (room : s.link.gathered.length < 256) :
    received (stuffByte b) s = setReceiver .gathering (s.link.gathered ++ [b]) false s := by
  unfold stuffByte; split
  · next stuffed =>
    have notFlag : b ^^^ Config.escapeXor ≠ Config.flagByte := by rcases stuffed with e | e <;> rw [e] <;> decide
    have back : b ^^^ Config.escapeXor ^^^ Config.escapeXor = b := by rw [BitVec.xor_assoc, BitVec.xor_self, BitVec.xor_zero]
    calc received [Config.escapeByte, b ^^^ Config.escapeXor] s
        = receiveByte (b ^^^ Config.escapeXor) false (receiveByte Config.escapeByte false s) := rfl
      _ = receiveByte (b ^^^ Config.escapeXor) false (setReceiver .gathering s.link.gathered true s) := by
        rw [receiveByte_gathering gathering, gatherStep_escape rfl escape]
      _ = gatherByte (b ^^^ Config.escapeXor ^^^ Config.escapeXor) (setReceiver .gathering s.link.gathered true s) := by
        rw [receiveByte_gathering (s := setReceiver .gathering s.link.gathered true s) rfl, gatherStep_escaped notFlag rfl]
      _ = setReceiver .gathering (s.link.gathered ++ [b]) false s := by
        rw [back, gatherByte_room (s := setReceiver .gathering s.link.gathered true s) room]; rfl
  · next plain =>
    obtain ⟨notFlag, notEscape⟩ := not_or.mp plain
    show receiveByte b false s = _
    rw [receiveByte_gathering gathering, gatherStep_plain notFlag notEscape escape, gatherByte_room room]

/-- Bytes that are stuffed and received are gathered in order, as long as there is room for them (R161, R169). -/
theorem received_stuffed (bytes : List Byte) (room : s.link.gathered.length + bytes.length ≤ 256) :
    received (bytes.flatMap stuffByte) s = setReceiver .gathering (s.link.gathered ++ bytes) false s := by
  induction bytes generalizing s with
  | nil =>
    rw [List.append_nil]
    show s = { s with link := { s.link with hunt := .gathering, gathered := s.link.gathered, escape := false } }
    rw [← gathering, ← escape]
  | cons b bytes ih =>
    rw [List.length_cons] at room
    rw [List.flatMap_cons, received_append, received_stuffByte gathering escape b (by omega),
      ih (s := setReceiver .gathering (s.link.gathered ++ [b]) false s) rfl rfl (by
        show (s.link.gathered ++ [b]).length + bytes.length ≤ 256
        rw [List.length_append, List.length_singleton]; omega)]
    show setReceiver .gathering (s.link.gathered ++ [b] ++ bytes) false s = _
    rw [List.append_assoc]; rfl

end Gathering

/-- The bytes of a frame, received from rest, are its arrival at the receive buffer (R161 to R163, R169). -/
theorem received_lineBytes {f : PanelFrame} {s : State} (empty : s.link.gathered = []) (escape : s.link.escape = false)
    (fits : f.payload.length ≤ 252) : received f.lineBytes s = offerRequest f (setReceiver .gathering [] false s) := by
  have room : f.unstuffed.length ≤ 256 := by rw [f.length_unstuffed]; omega
  unfold PanelFrame.lineBytes
  rw [received_cons, received_append]
  calc received [Config.flagByte] (received (f.unstuffed.flatMap stuffByte) (receiveByte Config.flagByte false s))
      = received [Config.flagByte] (setReceiver .gathering f.unstuffed false s) := by
        rw [receiveByte_opens empty escape, received_stuffed (s := setReceiver .gathering [] false s) rfl rfl]
        · rfl
        · rw [setReceiver_link, List.length_nil, Nat.zero_add]; exact room
    _ = judgeFrame f.unstuffed (setReceiver .gathering [] false s) := by
        show receiveByte Config.flagByte false (setReceiver .gathering f.unstuffed false s) = _
        rw [receiveByte_gathering (s := setReceiver .gathering f.unstuffed false s) rfl, gatherStep_closes rfl rfl]; rfl
    _ = offerRequest f (setReceiver .gathering [] false s) := judgeFrame_frame f

end Sys2Proof.Machine

namespace Sys2Proof.Proofs
open Sys2Proof Sys2Proof.Machine

/-- Settles O5: the opening flag, the stuffed bytes and the closing flag bring the frame, which is the request's arrival. -/
theorem frameBytesServeRequest : Obligations.FrameBytesServeRequest := by
  unfold Obligations.FrameBytesServeRequest
  intro i f s ok e empty escape
  rw [feedBytes_eq, received_lineBytes empty escape (payload_of_wellFormed ok e), exec_request e]; rfl

/-- Settles O6: the receiver's cases of R161 one by one, and the judgement of a frame by R162. -/
theorem receivedByte : Obligations.ReceivedByte := by
  unfold Obligations.ReceivedByte
  intro b s receiver gathers limit
  simp only [exec_panelByteReceived]
  have gathered (x : Byte) : gatherByte x s = gathers x := by
    by_cases full : s.link.gathered.length = 256
    · rw [gatherByte_full full]; exact (if_pos full).symm
    · rw [gatherByte_room (by omega)]; exact (if_neg full).symm
  refine ⟨fun hunting => ⟨?_, ?_⟩, fun gathering => ?_⟩
  · rw [receiveByte_hunting hunting]; simp
  · rw [receiveByte_hunting hunting]; simp only [Bool.not_false, and_true]; rfl
  · rw [receiveByte_framing gathering, receiveByte_gathering gathering]
    refine ⟨rfl, fun flag escape => ?_, fun flag escape empty => ?_, fun flag escape some? bad => ?_,
      fun f flag escape frame => ?_, fun notFlag escape => ?_, fun esc escape => ?_, fun notFlag notEscape escape => ?_⟩
    · rw [gatherStep_aborts flag escape]; rfl
    · rw [gatherStep_closes flag escape, empty]; rfl
    · rw [gatherStep_closes flag escape, judgeFrame_bad some? bad]; rfl
    · rw [gatherStep_closes flag escape, frame, judgeFrame_frame, exec_unknownType]; rfl
    · rw [gatherStep_escaped notFlag escape, gathered]; rfl
    · rw [gatherStep_escape esc escape]; rfl
    · rw [gatherStep_plain notFlag notEscape escape, gathered]

end Sys2Proof.Proofs
end

section
/-! One step of the part: the front of its queue, or the tick of its clock (log 2). -/

namespace Sys2Proof.Machine

/-- A step with a command waiting is that command, run with the rest of the queue. -/
theorem step_of_front {s : State} {c : Instr} {rest : List Instr} (front : s.pending = c :: rest) :
    step s = exec c { s with pending := rest } := by
  unfold step; rw [front]

/-- A step with no command waiting is a tick of the clock. -/
theorem step_of_no_command {s : State} (empty : s.pending = []) : step s = .next (tick s) := by
  unfold step; rw [empty]

end Sys2Proof.Machine

namespace Sys2Proof.Proofs
open Sys2Proof Sys2Proof.Machine

/-- Settles O1: the two cases of the queue, a front command and none. -/
theorem stepTakesFrontCommand : Obligations.StepTakesFrontCommand := by
  unfold Obligations.StepTakesFrontCommand
  constructor
  · intro s c rest front
    exact step_of_front front
  · intro s empty
    exact step_of_no_command empty

end Sys2Proof.Proofs
end

section
/-! The records of zones and exits that the zone monitor and the exit monitor keep, one at a time, and what a write of one of
them leaves of the invariant over both tables (R22, R28 to R30, R39, R40). -/

namespace Sys2Proof.Machine

/-! ## Writes of one zone's record -/

theorem setZoneRt_self (z : ZoneId) (s : State) : setZoneRt z (zoneOf s z) s = s := by
  have same : store s.zones z (zoneOf s z) = s.zones := store_look _ z
  unfold setZoneRt; rw [same]

/-- A record is rewritten twice. -/
theorem setZoneRt_rewrite (f : ZoneRt → ZoneRt) (z : ZoneId) (r : ZoneRt) (s : State) :
    setZoneRt z (f (zoneOf (setZoneRt z r s) z)) (setZoneRt z r s) = setZoneRt z (f r) s := by
  rw [zoneOf_setZoneRt_same]; unfold setZoneRt; rw [store_store]

theorem stopTimers_eq (z : ZoneId) (s : State) :
    stopTimers z s = setZoneRt z { zoneOf s z with confirm := none, clearHold := none, silence := none } s := by
  have first : stopClearHold z (stopConfirm z s)
      = setZoneRt z { zoneOf s z with confirm := none, clearHold := none } s :=
    setZoneRt_rewrite (fun r => { r with clearHold := none }) z { zoneOf s z with confirm := none } s
  unfold stopTimers; rw [first]
  exact setZoneRt_rewrite (fun r => { r with silence := none }) z { zoneOf s z with confirm := none, clearHold := none } s

theorem stopSilence_stopConfirm (z : ZoneId) (s : State) :
    stopSilence z (stopConfirm z s) = setZoneRt z { zoneOf s z with confirm := none, silence := none } s :=
  setZoneRt_rewrite (fun r => { r with silence := none }) z { zoneOf s z with confirm := none } s

theorem stopConfirm_stopSilence (z : ZoneId) (s : State) :
    stopConfirm z (stopSilence z s) = setZoneRt z { zoneOf s z with silence := none, confirm := none } s :=
  setZoneRt_rewrite (fun r => { r with confirm := none }) z { zoneOf s z with silence := none } s

theorem startSilence_stopClearHold (z : ZoneId) (s : State) :
    startSilence z (stopClearHold z s)
      = setZoneRt z { zoneOf s z with clearHold := none, silence := some (s.now + seconds s.timing.silenceTime) } s :=
  setZoneRt_rewrite (fun r => { r with silence := some (s.now + seconds s.timing.silenceTime) }) z
    { zoneOf s z with clearHold := none } s

/-! ## Records in order -/

/-- A zone's timers run in the states they belong to, and the record of an undefined zone is at its reset value (R22, R28 to
R30). -/
structure TimersSound (defined : Bool) (r : ZoneRt) : Prop where
  undefined : defined = false → r = ZoneRt.reset
  confirm : r.confirm.isSome → r.state = .suspect
  clearHold : r.clearHold.isSome ↔ r.state = .clearing
  silence : r.silence.isSome → watched r.state

theorem TimersSound.reset (defined : Bool) : TimersSound defined ZoneRt.reset := ⟨fun _ => rfl, nofun, ⟨nofun, nofun⟩, nofun⟩

section
variable {d : Bool} {r : ZoneRt} (t : TimersSound d r)
include t

theorem TimersSound.unconfirmed (h : r.state ≠ .suspect) : r.confirm = none :=
  Option.not_isSome_iff_eq_none.mp fun c => h (t.confirm c)

theorem TimersSound.unheld (h : r.state ≠ .clearing) : r.clearHold = none :=
  Option.not_isSome_iff_eq_none.mp fun c => h (t.clearHold.mp c)

theorem TimersSound.unwatched (h : watched r.state = false) : r.silence = none :=
  Option.not_isSome_iff_eq_none.mp fun c => absurd (t.silence c) (by rw [h]; nofun)

/-- Only a defined zone has a timer that runs or a state other than CLEAR. -/
theorem TimersSound.defined_of_ne (h : r ≠ ZoneRt.reset) : d = true := by
  cases d
  · exact absurd (t.undefined rfl) h
  · rfl

/-- The silence timer of a defined zone in CLEAR or SUSPECT starts or restarts (R30). -/
theorem TimersSound.watchedBy (h : watched r.state) (new : d = true) (time : Option Nat) :
    TimersSound d { r with silence := time } :=
  ⟨fun e => absurd (new.symm.trans e) nofun, t.confirm, t.clearHold, fun _ => h⟩

end

/-- The contact state of a defined exit is NONE where it has no contact position, and the record of an undefined exit is at
its reset value (R39). -/
structure FieldsSound (x : Exit) (r : ExitRt) : Prop where
  contact : x.defined = true → (r.contact = .none ↔ x.contact = none)
  undefined : x.defined = false → r = ExitRt.reset

theorem FieldsSound.ofDefined {x : Exit} {r : ExitRt} (d : x.defined = true) (h : r.contact = .none ↔ x.contact = none) :
    FieldsSound x r := ⟨fun _ => h, fun e => absurd (d.symm.trans e) nofun⟩

/-- Other runtime fields than the contact state, in a defined exit or where nothing changes. -/
theorem FieldsSound.congr {x : Exit} {r q : ExitRt} (h : FieldsSound x r) (contact : q.contact = r.contact)
    (undefined : x.defined = false → q = r) : FieldsSound x q :=
  ⟨fun d => by rw [contact]; exact h.contact d, fun d => (undefined d).trans (h.undefined d)⟩

theorem freshContact_none (c : Option Position) : freshContact c = .none ↔ c = none := by
  cases c <;> simp [freshContact]

theorem contactOf_ne_none (c : ContactState) : contactOf c ≠ .none := by cases c <;> simp [contactOf]

/-! ## Both tables -/

/-- The zone timers run in their states, and the exits are as Table 2.3 and R39 give them. -/
structure Monitored (s : State) : Prop where
  timers : ∀ z, TimersSound (look s.map.zones z).defined (zoneOf s z)
  fields : ∀ e, FieldsSound (look s.map.exits e) (exitOf s e)
  available : ∀ e, (look s.map.exits e).defined = true → (exitOf s e).available = availabilityOf s e

theorem monitored_iff {s : State} : Monitored s ↔ ZonesSound s ∧ ExitsSound s :=
  ⟨fun k => ⟨⟨fun z => (k.timers z).undefined, fun z => (k.timers z).confirm, fun z => (k.timers z).clearHold,
      fun z => (k.timers z).silence⟩, ⟨k.available, fun e => (k.fields e).contact, fun e => (k.fields e).undefined⟩⟩,
    fun k => ⟨fun z => ⟨k.1.undefined z, k.1.confirm z, k.1.clearHold z, k.1.silence z⟩,
      fun e => ⟨k.2.contact e, k.2.undefined e⟩, k.2.available⟩⟩

/-- All that the invariant reads. -/
def monitorView (s : State) : Vector Point 240 × Vector Exit 24 × Vector Zone 64 × Vector ZoneRt 64 × Vector ExitRt 24 :=
  (s.map.points, s.map.exits, s.map.zones, s.zones, s.exits)

/-- The availability that an exit's inputs give is read from the invariant's tables alone (R40). -/
theorem availabilityOf_view {s t : State} (h : monitorView t = monitorView s) (e : ExitId) :
    availabilityOf t e = availabilityOf s e := by
  obtain ⟨points, exits, -, zones, rt⟩ := by simpa only [monitorView, Prod.mk.injEq] using h
  unfold availabilityOf exitZoneState exitZone zoneOf exitOf
  rw [points, exits, zones, rt]

theorem Monitored.of_view {s t : State} (k : Monitored s) (h : monitorView t = monitorView s) : Monitored t := by
  have gives := availabilityOf_view h
  obtain ⟨points, exits, zones, zoneRt, exitRt⟩ := by simpa only [monitorView, Prod.mk.injEq] using h
  refine ⟨fun z => ?_, fun e => ?_, fun e d => ?_⟩
  · unfold zoneOf; rw [zones, zoneRt]; exact k.timers z
  · unfold exitOf; rw [exits, exitRt]; exact k.fields e
  · rw [gives]; unfold exitOf; rw [exitRt]; exact k.available e (by rw [← exits]; exact d)

/-- An exit's availability is read from the state of its point's zone and from no other zone's record (R40). -/
theorem availabilityOf_zones {s : State} {v : Vector ZoneRt 64} {e : ExitId}
    (h : ∀ z, exitZone s e = some z → (look v z).state = (zoneOf s z).state) :
    availabilityOf { s with zones := v } e = availabilityOf s e := by
  have zone : exitZoneState { s with zones := v } e = exitZoneState s e := by
    show (exitZone s e).map (fun z => (look v z).state) = (exitZone s e).map fun z => (zoneOf s z).state
    cases found : exitZone s e with
    | none => rfl
    | some z => exact congrArg some (h z found)
  unfold availabilityOf; rw [zone]; rfl

/-- Zones are rewritten in their timers and readings, their states staying (R28 to R30). -/
theorem Monitored.setZones {s : State} (k : Monitored s) {v : Vector ZoneRt 64}
    (state : ∀ z, (look v z).state = (zoneOf s z).state) (t : ∀ z, TimersSound (look s.map.zones z).defined (look v z)) :
    Monitored { s with zones := v } :=
  ⟨t, k.fields, fun e d => (k.available e d).trans (availabilityOf_zones fun z _ => state z).symm⟩

theorem Monitored.setTimers {s : State} (k : Monitored s) {z : ZoneId} {r : ZoneRt} (state : r.state = (zoneOf s z).state)
    (t : TimersSound (look s.map.zones z).defined r) : Monitored (setZoneRt z r s) := by
  refine k.setZones (fun y => ?_) fun y => ?_ <;> rw [look_store] <;> split
  · next e => rw [← e, state]
  · rfl
  · next e => rw [← e]; exact t
  · exact k.timers y

/-- A re-evaluation of exits needs the invariant of their availability for the other exits alone (R40). -/
theorem monitored_reevaluated {s : State} {c : ExitId → Bool}
    (timers : ∀ z, TimersSound (look s.map.zones z).defined (zoneOf s z))
    (fields : ∀ e, FieldsSound (look s.map.exits e) (exitOf s e))
    (others : ∀ e, (look s.map.exits e).defined = true → c e = false → (exitOf s e).available = availabilityOf s e) :
    Monitored (reevaluated c s) := by
  have record (e : ExitId) : exitOf (reevaluated c s) e
      = if (look s.map.exits e).defined && c e then { exitOf s e with available := availabilityOf s e } else exitOf s e :=
    look_tabulate ..
  refine ⟨timers, fun e => ?_, fun e d => ?_⟩
  · refine (fields e).congr ?_ fun d => ?_ <;> rw [record]
    · split <;> rfl
    · rw [show (look s.map.exits e).defined = false from d]; rfl
  · have defined : (look s.map.exits e).defined = true := d
    rw [record, availabilityOf_reevaluated, defined, Bool.true_and]
    split
    · rfl
    · next out => exact others e defined (Bool.eq_false_of_not_eq_true out)

/-- A state change of a defined zone, whatever its record was written to before: its exits follow it (R33). -/
theorem Monitored.changeZone {s : State} (k : Monitored s) {z : ZoneId} (d : (look s.map.zones z).defined = true) {r : ZoneRt}
    {new : ZoneState} (t : TimersSound true { r with state := new }) (cause : ZoneCause) :
    Monitored (changeZone z new cause (setZoneRt z r s)) := by
  have written : zoneWritten z new (setZoneRt z r s) = setZoneRt z { r with state := new } s :=
    setZoneRt_rewrite (fun r => { r with state := new }) z r s
  have moved : Monitored (reevaluated (inZone s z) (setZoneRt z { r with state := new } s)) := by
    refine monitored_reevaluated (fun y => ?_) k.fields fun e defined out => ?_
    · by_cases e : z = y
      · subst e; rw [zoneOf_setZoneRt_same, setZoneRt_map, d]; exact t
      · rw [zoneOf_setZoneRt_ne _ _ e]; exact k.timers y
    · refine (k.available e defined).trans (availabilityOf_zones fun y found => ?_).symm
      have other : z ≠ y := by
        rintro rfl
        simp [inZone, found] at out
      rw [look_store_ne _ _ other]; rfl
  rw [changeZone_eq]
  refine moved.of_view ?_
  unfold zoneMoved; rw [written]; rfl

theorem Monitored.changeState {s : State} (k : Monitored s) {z : ZoneId} (d : (look s.map.zones z).defined = true)
    {new : ZoneState} (t : TimersSound true { zoneOf s z with state := new }) (cause : ZoneCause) :
    Monitored (Machine.changeZone z new cause s) := by
  have moved := k.changeZone d t cause
  rwa [setZoneRt_self] at moved

/-- Runtime fields of exits are written that give the same availability, and no contact state changes (R42). -/
theorem Monitored.setExits {s : State} (k : Monitored s) {v : Vector ExitRt 24}
    (same : ∀ e, (look v e).override = (exitOf s e).override ∧ (look v e).contact = (exitOf s e).contact
      ∧ (look v e).available = (exitOf s e).available)
    (undefined : ∀ e, (look s.map.exits e).defined = false → look v e = exitOf s e) : Monitored { s with exits := v } := by
  refine ⟨k.timers, fun e => (k.fields e).congr (same e).2.1 (undefined e), fun e d => ?_⟩
  obtain ⟨override, contact, available⟩ := same e
  refine available.trans ((k.available e d).trans ?_)
  show availability _ _ _ = availability (look v e).override (look v e).contact _
  rw [override, contact]; rfl

/-- The re-evaluation of one exit settles its availability, and acts on no other exit (R40). -/
theorem reevalExit_monitorView {e : ExitId} {s : State} (d : (look s.map.exits e).defined = true) :
    monitorView (reevalExit true e s)
      = monitorView (setExitRt e { exitOf s e with available := availabilityOf s e } s) := by
  rw [reevalExit_eq, d, Bool.true_and]
  split
  · rfl
  · next same =>
    have same : availabilityOf s e = (exitOf s e).available := by simpa using same
    have stays : store s.exits e (exitOf s e) = s.exits := store_look _ e
    unfold monitorView setExitRt; rw [same, stays]

/-- A defined exit takes other inputs and is re-evaluated (R38, R40, R41). -/
theorem Monitored.reeval {s : State} (k : Monitored s) {e : ExitId} (d : (look s.map.exits e).defined = true) {r : ExitRt}
    (contact : r.contact = .none ↔ (look s.map.exits e).contact = none) :
    Monitored (reevalExit true e (setExitRt e r s)) := by
  have gives : availabilityOf (setExitRt e r s) e = availability r.override r.contact (exitZoneState s e) := by
    unfold availabilityOf; rw [exitOf_setExitRt_same]; rfl
  have settled : Monitored (setExitRt e { r with available := availabilityOf (setExitRt e r s) e } s) := by
    refine ⟨k.timers, fun x => ?_, fun x dx => ?_⟩
    · by_cases n : e = x
      · subst n; rw [exitOf_setExitRt_same]; exact .ofDefined d contact
      · rw [exitOf_setExitRt_ne _ _ n]; exact k.fields x
    · by_cases n : e = x
      · subst n; rw [exitOf_setExitRt_same, gives]
        unfold availabilityOf; rw [exitOf_setExitRt_same]; rfl
      · refine Eq.trans (by rw [exitOf_setExitRt_ne _ _ n]) ((k.available x dx).trans ?_)
        unfold availabilityOf; rw [exitOf_setExitRt_ne _ _ n]; rfl
  refine settled.of_view ((reevalExit_monitorView (s := setExitRt e r s) d).trans ?_)
  rw [exitOf_setExitRt_same]
  unfold monitorView setExitRt; dsimp only; rw [store_store]

theorem Monitored.forEach {n : Nat} {f : Fin n → State → State} {s : State} (k : Monitored s)
    (h : ∀ i t, Monitored t → Monitored (f i t)) : Monitored (forEach n f s) := forEach_induct f s k h

end Sys2Proof.Machine
end

section
/-! Every step keeps the zone timers in the states they belong to and every exit as Table 2.3 and R39 give it. -/

namespace Sys2Proof.Machine

/-! ## A record that enters a state (2.1.1) -/

section Entry
variable {r : ZoneRt}

theorem TimersSound.atClear (state : r.state = .clear) (confirm : r.confirm = none) (held : r.clearHold = none) :
    TimersSound true r := by
  refine ⟨nofun, ?_, ?_, fun _ => ?_⟩ <;> rw [state]
  · rw [confirm]; nofun
  · rw [held]; exact ⟨nofun, nofun⟩
  · rfl

theorem TimersSound.atSuspect (state : r.state = .suspect) (held : r.clearHold = none) : TimersSound true r := by
  refine ⟨nofun, fun _ => state, ?_, fun _ => ?_⟩ <;> rw [state]
  · rw [held]; exact ⟨nofun, nofun⟩
  · rfl

theorem TimersSound.atClearing (state : r.state = .clearing) (confirm : r.confirm = none) (held : r.clearHold.isSome)
    (silence : r.silence = none) : TimersSound true r := by
  refine ⟨nofun, ?_, ⟨fun _ => state, fun _ => held⟩, ?_⟩
  · rw [confirm]; nofun
  · rw [silence]; nofun

/-- In SMOKE and SILENT no timer runs. -/
theorem TimersSound.stopped (state : r.state = .smoke ∨ r.state = .silent) (confirm : r.confirm = none)
    (held : r.clearHold = none) (silence : r.silence = none) : TimersSound true r := by
  refine ⟨nofun, ?_, ?_, ?_⟩
  · rw [confirm]; nofun
  · rw [held]; refine ⟨nofun, fun c => ?_⟩; rw [c] at state; rcases state with e | e <;> cases e
  · rw [silence]; nofun

/-- Timers may stop where they stand, but for a clear-hold timer that CLEARING needs (R28, R30). -/
theorem TimersSound.stops {d : Bool} {q : ZoneRt} (t : TimersSound d r) (state : q.state = r.state)
    (held : q.clearHold = r.clearHold) (confirm : q.confirm = none ∨ q.confirm = r.confirm)
    (silence : q.silence = none ∨ q.silence = r.silence) (undefined : d = false → q = r) : TimersSound d q := by
  refine ⟨fun e => (undefined e).trans (t.undefined e), fun c => ?_, ?_, fun c => ?_⟩
  · rcases confirm with e | e <;> rw [e] at c
    · cases c
    · rw [state]; exact t.confirm c
  · rw [held, state]; exact t.clearHold
  · rcases silence with e | e <;> rw [e] at c
    · cases c
    · rw [state]; exact t.silence c

end Entry

/-! ## Readings (R23 to R27) -/

theorem judge_map (z : ZoneId) (level : Byte) (s : State) : (Machine.judge z level s).map = s.map := by
  obtain ⟨⟨_, _, _, _, _, _, _, _, _, e⟩, -, -⟩ := judge_monitor z level s
  rw [e]

section Reading
variable {s : State} {z : ZoneId} (k : Monitored s) (d : (look s.map.zones z).defined = true)
include k d

theorem Monitored.zone : TimersSound true (zoneOf s z) := d ▸ k.timers z

theorem Monitored.judgeClear (clear : (zoneOf s z).state = .clear) (level : Byte) : Monitored (judgeClear z level s) := by
  have held := (k.zone d).unheld (by rw [clear]; nofun)
  unfold Machine.judgeClear; split
  · split
    · refine k.changeZone d ?_ _
      exact .atSuspect rfl held
    · refine k.changeState d ?_ _
      exact .atSuspect rfl held
  · exact k

/-- A timer of the zone stops or starts where it may. -/
theorem Monitored.setDefined {r : ZoneRt} (state : r.state = (zoneOf s z).state) (t : TimersSound true r) :
    Monitored (setZoneRt z r s) := k.setTimers state (d ▸ t)

theorem Monitored.stopConfirm : Monitored (stopConfirm z s) :=
  k.setDefined d rfl ((k.zone d).stops rfl rfl (.inl rfl) (.inr rfl) nofun)

theorem Monitored.stopSilence : Monitored (stopSilence z s) :=
  k.setDefined d rfl ((k.zone d).stops rfl rfl (.inr rfl) (.inl rfl) nofun)

theorem Monitored.judgeSuspect (suspect : (zoneOf s z).state = .suspect) (level : Byte) :
    Monitored (judgeSuspect z level s) := by
  have held := (k.zone d).unheld (by rw [suspect]; nofun)
  unfold Machine.judgeSuspect; split
  · refine k.changeZone d ?_ _
    exact .atClear rfl rfl held
  · split
    · exact k.stopConfirm d
    · split
      · refine k.setDefined d rfl ?_
        exact .atSuspect suspect held
      · exact k

theorem Monitored.judge (level : Byte) : Monitored (judge z level s) := by
  have t := k.zone d
  unfold Machine.judge; split
  · next clear => exact k.judgeClear d clear level
  · next suspect => exact k.judgeSuspect d suspect level
  · next smoke =>
    have quiet := t.unconfirmed (by rw [smoke]; nofun)
    have silent := t.unwatched (by rw [smoke]; rfl)
    split
    · exact k
    · refine k.changeZone d ?_ _
      exact .atClearing rfl quiet rfl silent
  · next clearing =>
    have quiet := t.unconfirmed (by rw [clearing]; nofun)
    have silent := t.unwatched (by rw [clearing]; rfl)
    split
    · refine k.changeZone d ?_ _
      exact .stopped (.inl rfl) quiet rfl silent
    · exact k
  · next silent =>
    have quiet := t.unconfirmed (by rw [silent]; nofun)
    have held := t.unheld (by rw [silent]; nofun)
    have moved := k.changeState d (new := .clear) (.atClear rfl quiet held) .reading
    have map : (Machine.changeZone z .clear .reading s).map = s.map := by rw [changeZone_eq]; rfl
    refine moved.judgeClear (by rw [map]; exact d) ?_ level
    have written : zoneOf (zoneWritten z .clear s) z = { zoneOf s z with state := .clear } := zoneOf_setZoneRt_same ..
    rw [changeZone_eq]
    show (zoneOf (zoneWritten z .clear s) z).state = .clear
    rw [written]

theorem Monitored.takeReading (level : Byte) : Monitored (takeReading z level s) := by
  have read : Monitored (setZoneRt z { zoneOf s z with lastReading := some level } s) :=
    k.setDefined d rfl ((k.zone d).stops rfl rfl (.inr rfl) (.inr rfl) nofun)
  have judged := read.judge d level
  unfold Machine.takeReading restartSilence
  have defined : (look (Machine.judge z level (setZoneRt z { zoneOf s z with lastReading := some level } s)).map.zones z).defined
      = true := by rw [judge_map]; exact d
  generalize Machine.judge z level (setZoneRt z { zoneOf s z with lastReading := some level } s) = u at judged defined
  split
  · next restarts =>
    have watches : watched (zoneOf u z).state = true := (Bool.and_eq_true ..  ▸ restarts).2
    exact judged.setDefined defined rfl ((judged.zone defined).watchedBy watches rfl _)
  · exact judged

end Reading

theorem definedZone_defined {s : State} {index : Byte} {z : ZoneId} (h : definedZone s index = some z) :
    (look s.map.zones z).defined = true := by
  unfold definedZone at h
  split at h
  · split at h
    · next d => cases h; exact d
    · cases h
  · cases h

theorem Monitored.takeReadings {s : State} (k : Monitored s) (entries : List (Byte × Byte)) :
    Monitored (takeReadings entries s).2 := by
  induction entries generalizing s with
  | nil => exact k
  | cons e rest ih =>
    unfold Machine.takeReadings; split
    · next z found => exact ih (k.takeReading (definedZone_defined found) _)
    · exact ih k

theorem Monitored.zoneReadings {s : State} (k : Monitored s) (entries : List (Byte × Byte)) :
    Monitored (zoneReadings entries s).state := by
  unfold Machine.zoneReadings; split
  · exact k
  · exact k.takeReadings entries

/-! ## CONFIRM ZONE and the expiries (R28 to R31) -/

theorem Monitored.confirmZone {s : State} (k : Monitored s) (index : Byte) : Monitored (confirmZone index s).state := by
  unfold Machine.confirmZone; split
  · exact k
  · next z found =>
    have d := definedZone_defined found
    dsimp only [taken]; rw [stopTimers_eq]; split
    · next smoke =>
      refine k.setDefined d rfl ?_
      exact .stopped (.inl smoke) rfl rfl rfl
    · refine k.changeZone d ?_ _
      exact .stopped (.inl rfl) rfl rfl rfl

theorem Monitored.reachTime {s : State} (k : Monitored s) (time : Nat) : Monitored (reachTime time s) := k.of_view rfl

/-- A zone with a timer that runs is defined (R22). -/
theorem Monitored.runs {s : State} (k : Monitored s) {z : ZoneId} (h : zoneOf s z ≠ ZoneRt.reset) :
    (look s.map.zones z).defined = true := (k.timers z).defined_of_ne h

theorem Monitored.confirmExpiry {s : State} (k : Monitored s) (z : ZoneId) : Monitored (confirmExpiry z s) := by
  unfold Machine.confirmExpiry; split
  · exact k
  · next time running =>
    have d := k.runs (z := z) (fun e => by rw [e] at running; cases running)
    dsimp only; split
    · next suspect =>
      have held := (k.zone d).unheld (by rw [suspect]; nofun)
      rw [stopSilence_stopConfirm]
      refine (k.reachTime time).changeZone d ?_ _
      exact .stopped (.inl rfl) rfl held rfl
    · exact (k.reachTime time).stopConfirm d

theorem Monitored.clearHoldExpiry {s : State} (k : Monitored s) (z : ZoneId) : Monitored (clearHoldExpiry z s) := by
  unfold Machine.clearHoldExpiry; split
  · exact k
  · next time running =>
    have d := k.runs (z := z) (fun e => by rw [e] at running; cases running)
    have clearing := (k.timers z).clearHold.mp (by rw [running]; rfl)
    have quiet := (k.zone d).unconfirmed (by rw [clearing]; nofun)
    dsimp only; rw [if_pos clearing]; split
    · rw [startSilence_stopClearHold]
      refine (k.reachTime time).changeZone d ?_ _
      exact .atClear rfl quiet rfl
    · refine (k.reachTime time).changeZone d ?_ _
      exact .atClear rfl quiet rfl

theorem Monitored.silenceExpiry {s : State} (k : Monitored s) (z : ZoneId) : Monitored (silenceExpiry z s) := by
  unfold Machine.silenceExpiry; split
  · exact k
  · next time running =>
    have d := k.runs (z := z) (fun e => by rw [e] at running; cases running)
    have watches := (k.timers z).silence (by rw [running]; rfl)
    have held := (k.zone d).unheld fun clearing => by rw [clearing] at watches; cases watches
    dsimp only; split
    · rw [stopConfirm_stopSilence]
      refine (k.reachTime time).changeZone d ?_ _
      exact .stopped (.inr rfl) rfl held rfl
    · exact (k.reachTime time).stopSilence d

/-! ## Exits and the gate scanner (R37 to R42) -/

theorem Monitored.takeContact {s : State} (k : Monitored s) {e : ExitId} (d : (look s.map.exits e).defined = true)
    (contact : (look s.map.exits e).contact ≠ none) (c : ContactState) : Monitored (takeContact e c s) :=
  k.reeval d ⟨fun h => absurd h (contactOf_ne_none c), fun h => absurd h contact⟩

theorem Monitored.handContact {s : State} (k : Monitored s) (p : PositionId) : Monitored (handContact p s) := by
  refine k.forEach fun e t kt => ?_
  split
  · next reached =>
    simp only [hasContact, Bool.and_eq_true, beq_iff_eq] at reached
    obtain ⟨⟨d, position⟩, -⟩ := reached
    exact kt.takeContact d (fun none => by rw [none] at position; cases position) _
  · exact kt

theorem Monitored.copyContact {s : State} (k : Monitored s) (e : ExitId) : Monitored (copyContact e s) := by
  unfold Machine.copyContact; split
  · next due =>
    split
    · next pos contact =>
      exact k.takeContact (Bool.and_eq_true .. ▸ due).1 (by rw [contact]; nofun) _
    · exact k
  · exact k

theorem Monitored.gateScan {s : State} (k : Monitored s) (levels : BitVec 32) : Monitored (gateScan levels s) := by
  have scanned : Monitored { s with scanner := settleScan (scanRuns levels s.scanner) } := k.of_view rfl
  have handed := foldl_induct (P := Monitored) (fun s p => Machine.handContact p s) (acceptedOf (scanRuns levels s.scanner)) _
    scanned fun t p kt => kt.handContact p
  exact handed.forEach fun e t kt => kt.copyContact e

theorem definedExit_defined {s : State} {index : Byte} {e : ExitId} (h : definedExit s index = some e) :
    (look s.map.exits e).defined = true := by
  unfold definedExit at h
  split at h
  · split at h
    · next d => cases h; exact d
    · cases h
  · cases h

theorem Monitored.exitOverride {s : State} (k : Monitored s) (index value : Byte) :
    Monitored (exitOverride index value s).state := by
  unfold Machine.exitOverride; split
  · exact k
  · split
    · exact k
    · next e found =>
      have d := definedExit_defined found
      split
      · exact k
      · exact k.reeval d ((k.fields e).contact d)

theorem handChange_monitorView (c : ChangeClass) (s : State) : monitorView (handChange c s) = monitorView s := by
  obtain ⟨g, h⟩ := handChange_frame c s
  rw [h]; rfl

/-- One exit's runtime fields are written that give the same availability (R42). -/
theorem Monitored.setExit {s : State} (k : Monitored s) {e : ExitId} {r : ExitRt}
    (same : r.override = (exitOf s e).override ∧ r.contact = (exitOf s e).contact ∧ r.available = (exitOf s e).available)
    (undefined : (look s.map.exits e).defined = false → r = exitOf s e) : Monitored (setExitRt e r s) := by
  refine k.setExits (fun x => ?_) fun x dx => ?_ <;> rw [look_store] <;> split
  · next n => rw [← n]; exact same
  · exact ⟨rfl, rfl, rfl⟩
  · next n => rw [← n]; exact undefined (by rw [n]; exact dx)
  · rfl

theorem Monitored.exitBias {s : State} (k : Monitored s) (index : Byte) (value : Half) :
    Monitored (exitBias index value s).state := by
  unfold Machine.exitBias; split
  · exact k
  · split
    · exact k
    · next e found =>
      have d := definedExit_defined found
      have written (b : Nat) : Monitored (setExitRt e { exitOf s e with bias := b } s) :=
        k.setExit ⟨rfl, rfl, rfl⟩ fun u => absurd (d.symm.trans u) nofun
      dsimp only [taken, writeBias]; split
      · split
        · exact (written _).of_view (handChange_monitorView _ _)
        · exact written _
      · exact written _

end Sys2Proof.Machine
end

section
/-! The other blocks and the zone timers: changes of mode, the map requests, and every step (R11, R17, R22, R30, R40, R158). -/

namespace Sys2Proof.Machine

/-! ## Operations that the zone monitor and the exit monitor do not show -/

theorem HeadsMove.monitorView {s t : State} (h : HeadsMove s t) : monitorView t = monitorView s := by
  obtain ⟨m, d, q, l, rfl⟩ := h
  rfl

theorem BusMove.monitorView {s t : State} (h : BusMove s t) : monitorView t = monitorView s := by
  obtain ⟨⟨m, d, q, l, b, p, dv, hd, n, rfl⟩, -, -⟩ := h
  rfl

theorem recomputeAll_monitorView (s : State) : monitorView (recomputeAll s) = monitorView s := by
  obtain ⟨d, q, h⟩ := recomputeAll_frame s
  rw [h]; rfl

theorem endSweep_monitorView (s : State) : monitorView (endSweep s) = monitorView s := by
  obtain ⟨g, h⟩ := endSweep_frame s
  rw [h]; rfl

theorem endSelection_monitorView (s : State) : monitorView (endSelection s) = monitorView s := by
  obtain ⟨g, h⟩ := endSelection_frame s
  rw [h]; rfl

theorem startRun_monitorView (s : State) : monitorView (startRun s) = monitorView s := rfl

theorem replaceTable_monitorView (table : RouteTable) (s : State) : monitorView (replaceTable table s) = monitorView s := rfl

theorem publishTable_monitorView (table : RouteTable) (s : State) : monitorView (publishTable table s) = monitorView s := by
  obtain ⟨d, q, -, h⟩ := publishTable_eq table s
  rw [h]; rfl

theorem publish_monitorView (s : State) : monitorView (publish s) = monitorView s := by
  unfold publish; split
  · next table _ _ =>
    have after (u : State) : monitorView (afterPublication u) = monitorView u := by unfold afterPublication; split <;> rfl
    exact (after _).trans (publishTable_monitorView table s)
  · rfl

theorem disarmEngine_monitorView (s : State) : monitorView (disarmEngine s) = monitorView s := by
  have cleared (u : State) : monitorView (clearEngine u) = monitorView u := rfl
  unfold disarmEngine; split
  · exact (cleared _).trans (publishTable_monitorView _ s)
  · exact cleared s

theorem requestOnEntry_monitorView (s : State) : monitorView (requestOnEntry s) = monitorView s := by
  unfold requestOnEntry; split
  · next z _ =>
    obtain ⟨a, h⟩ := requestAlarm_frame z s
    rw [h]; rfl
  · rfl

/-! ## Modes, settings and blocked flags -/

/-- A change of mode keeps the invariant where its action does (R151). -/
theorem Monitored.changeMode {s : State} {new : Mode} {cause : ModeCause} {outcome : ModeOutcome} {zone : Option ZoneId}
    {act : State → State} (h : ∀ u, Monitored u → Monitored (act u)) (k : Monitored s) :
    Monitored (changeMode new cause outcome zone act s) := by
  have noticed : Monitored (offer (.mode (some s.mode) new cause outcome zone) { s with mode := new }) := k.of_view rfl
  exact (h _ noticed).of_view (recomputeAll_monitorView _)

theorem guardedZone_timers {s : State} {z : ZoneId} (t : TimersSound (look s.map.zones z).defined (zoneOf s z)) :
    TimersSound (look s.map.zones z).defined (guardedZone s z) := by
  unfold guardedZone; split
  · next starts =>
    simp only [Bool.and_eq_true] at starts
    obtain ⟨⟨⟨d, -⟩, watches⟩, -⟩ := starts
    exact t.watchedBy watches d _
  · exact t

theorem Monitored.enterGuard {s : State} (k : Monitored s) : Monitored (enterGuard s) := by
  have silences : Monitored (guardSilences s) := by
    rw [guardSilences_eq]
    refine k.setZones (fun z => ?_) fun z => ?_ <;> rw [look_tabulate]
    · exact guardedZone_state s z
    · exact guardedZone_timers (k.timers z)
  exact silences.of_view (requestOnEntry_monitorView _)

theorem Monitored.completeValidation {s : State} (k : Monitored s) : Monitored (completeValidation s) := by
  unfold Machine.completeValidation; split
  · split
    · have loaded := loadBiases_eq (setResult .passed { s with map := { s.map with validated := true } })
      have marked : Monitored (setResult .passed { s with map := { s.map with validated := true } }) := k.of_view rfl
      unfold passValidation; dsimp only; rw [loaded]
      refine .changeMode (fun u ku => ?_) ?_
      · exact (ku.of_view (startRun_monitorView u)).enterGuard
      · refine marked.setExits (fun e => ?_) fun e d => ?_ <;> rw [look_tabulate]
        · unfold loadedExit; split <;> exact ⟨rfl, rfl, rfl⟩
        · refine if_neg ?_; rw [d]; nofun
    · refine .changeMode (fun _ => id) ?_
      exact k.of_view rfl
  · exact k

theorem Monitored.autoAlarm {s : State} (k : Monitored s) : Monitored (autoAlarm s) := by
  unfold Machine.autoAlarm; split
  · exact k
  · dsimp only; split
    · refine .changeMode (fun _ => id) ?_
      exact k.of_view rfl
    · exact k.of_view rfl

theorem Monitored.arm {s : State} (k : Monitored s) : Monitored (arm s).state := by
  unfold Machine.arm; split <;> dsimp only [taken, refuse]
  · refine .changeMode (fun _ => id) ?_
    exact k.of_view rfl
  · exact k

theorem Monitored.disarm {s : State} (k : Monitored s) : Monitored (disarm s).state := by
  unfold Machine.disarm; split <;> dsimp only [taken, refuse]
  · exact .changeMode (fun u ku => ku.of_view (disarmEngine_monitorView u)) k
  · refine .changeMode (fun _ => id) ?_
    exact k.of_view rfl
  · exact k
  · exact k

theorem Monitored.alarm {s : State} (k : Monitored s) : Monitored (alarm s).state := by
  unfold Machine.alarm; split <;> dsimp only [taken, refuse]
  · exact .changeMode (fun _ => id) k
  · exact k

theorem Monitored.standDown {s : State} (k : Monitored s) : Monitored (standDown s).state := by
  unfold Machine.standDown; split
  · exact k
  · split <;> dsimp only [taken, refuse]
    · exact k
    · exact .changeMode (fun _ ku => ku.enterGuard) k

theorem Monitored.setTiming {s : State} (k : Monitored s) (setting : Byte) (value : Half) :
    Monitored (setTiming setting value s).state := by
  unfold Machine.setTiming; split
  · split
    · exact k
    · next time _ =>
      have written : Monitored { s with timing := time } := k.of_view rfl
      dsimp only [taken, storeTiming]; split
      · exact written
      · exact written.of_view (recomputeAll_monitorView _)
  · exact k

/-- What RESTART writes in its blocks, aisles, engine and link aside. -/
theorem restarted_frame (s : State) : ∃ ai g l, restarted s = { zonesReset s with
    exits := tabulate 24 (restartedExit (zonesReset s)), map := { s.map with aisles := ai }, engine := g, link := l } :=
  ⟨_, _, _, rfl⟩

/-- RESTART leaves every zone in CLEAR without timers, and every defined exit with the availability that gives (R22, R39,
R158). -/
theorem Monitored.restarted {s : State} (k : Monitored s) : Monitored (restarted s) := by
  obtain ⟨ai, g, l, frame⟩ := restarted_frame s
  rw [frame]
  generalize written : ({ zonesReset s with
    exits := tabulate 24 (restartedExit (zonesReset s)), map := { s.map with aisles := ai }, engine := g, link := l } : State)
    = u
  have exits : u.map.exits = s.map.exits := by rw [← written]
  have zone (z : ZoneId) : zoneOf u z = ZoneRt.reset := by rw [← written]; exact look_replicate ..
  have record (e : ExitId) : exitOf u e = restartedExit (zonesReset s) e := by rw [← written]; exact look_tabulate ..
  have zones (e : ExitId) : exitZoneState u e = exitZoneState (zonesReset s) e := by rw [← written]; rfl
  refine ⟨fun z => by rw [zone]; exact .reset _, fun e => ?_, fun e d => ?_⟩
  · rw [record, exits]; unfold restartedExit; split
    · next d => exact .ofDefined d (freshContact_none _)
    · exact k.fields e
  · rw [exits] at d
    unfold availabilityOf; rw [record, zones]; unfold restartedExit
    rw [if_pos (show (look (zonesReset s).map.exits e).defined = true from d)]; rfl

theorem Monitored.restart {s : State} (k : Monitored s) : Monitored (restart s).state := by
  by_cases alarm : s.mode = .alarm
  · rw [restart_refused alarm]; exact k
  · have cancelled : Monitored (cancelled s) := k.of_view (by rw [cancelled_eq]; rfl)
    rw [restart_eq s alarm, restartBlocks_eq]
    dsimp only [taken]
    refine .changeMode (fun u ku => ?_) cancelled.restarted
    unfold restartGuard; split
    · exact ku.enterGuard.of_view (startRun_monitorView _)
    · exact ku

theorem writeBlocked_monitorView (x : AisleId) (b : Bool) (s : State) : monitorView (writeBlocked x b s) = monitorView s := by
  unfold writeBlocked; split
  · rfl
  · exact handChange_monitorView _ _

theorem Monitored.requestAct_modes {i : Instr} {s : State} (k : Monitored s) (o : ownerOf i = .modes) :
    Monitored (requestAct i s).state := by
  cases i
  case restart => exact k.restart
  case arm => exact k.arm
  case disarm => exact k.disarm
  case alarm => exact k.alarm
  case standDown => exact k.standDown
  case setTiming => exact k.setTiming _ _
  case blockAisle index =>
    show Monitored (blockAisle index s).state
    unfold blockAisle; split
    · exact k
    · exact k.of_view (writeBlocked_monitorView _ _ s)
  case openAisle index =>
    show Monitored (openAisle index s).state
    unfold openAisle; split
    · exact k
    · exact k.of_view (writeBlocked_monitorView _ _ s)
  case validationComplete | autoAlarmRequest => exact k
  all_goals exact absurd o nofun

/-! ## Map requests -/

/-- An accepted map request re-evaluates every exit, so it asks of the records before it all but their availability (R11,
R40). -/
theorem monitored_acceptMap {s : State} (timers : ∀ z, TimersSound (look s.map.zones z).defined (zoneOf s z))
    (fields : ∀ e, FieldsSound (look s.map.exits e) (exitOf s e)) : Monitored (acceptMap s) := by
  have settled : Monitored (reevaluated everyExit { s with map := { s.map with validated := false } }) :=
    monitored_reevaluated timers fields nofun
  unfold acceptMap; rw [reevalExits_eq]
  exact settled.of_view rfl

/-- A map request outside SETUP changes nothing (R1). -/
theorem Monitored.inSetup {s : State} (k : Monitored s) {act : State → Served} (h : Monitored (act s).state) :
    Monitored (inSetup act s).state := by
  unfold Machine.inSetup; split
  · exact h
  · exact k

theorem unplace_monitorView (h : HeadId) (s : State) : monitorView (unplace h s) = monitorView s := by
  unfold unplace; split
  · exact (enterAbsent_moves false h (setPlacement h { placementOf s h with defined := false } s)).monitorView
  · rfl

theorem monitored_reset : Monitored State.reset :=
  monitored_iff.mpr ⟨hardReset_zones 0 false .a State.reset, hardReset_exits 0 false .a State.reset⟩

/-- CLEAR MAP leaves the tables of a hard reset (R12). -/
theorem emptyTables_monitorView (s : State) : monitorView (emptyTables s) = monitorView State.reset := by
  unfold emptyTables
  generalize forEach 24 removeIfDefined s = u
  rfl

theorem Monitored.ofTaken {code : ReplyCode} {s : State} (k : Monitored s) : Monitored (taken code s).state := k

section Map
variable {s : State} (k : Monitored s)
include k

/-- A map request that writes no record of the two monitors (R2, R4, R9, R77, R84). -/
theorem Monitored.accepted {w : State} (zones : w.map.zones = s.map.zones) (exits : w.map.exits = s.map.exits)
    (zoneRt : w.zones = s.zones) (exitRt : w.exits = s.exits) : Monitored (acceptMap w) := by
  refine monitored_acceptMap (fun z => ?_) fun e => ?_
  · unfold zoneOf; rw [zones, zoneRt]; exact k.timers z
  · unfold exitOf; rw [exits, exitRt]; exact k.fields e

/-- An exit's definition and its runtime fields are written together (R6, R39). -/
theorem Monitored.acceptExit {e : ExitId} {x : Exit} {r : ExitRt} (own : FieldsSound x r) (l : Link) :
    Monitored (acceptMap { s with
      map := { s.map with exits := store s.map.exits e x }, exits := store s.exits e r, link := l }) := by
  refine monitored_acceptMap k.timers fun y => ?_
  show FieldsSound (look (store s.map.exits e x) y) (look (store s.exits e r) y)
  by_cases n : e = y
  · subst n; rw [look_store_same, look_store_same]; exact own
  · rw [look_store_ne _ _ n, look_store_ne _ _ n]; exact k.fields y

/-- A zone's definition and its runtime record are written together (R7, R22). -/
theorem Monitored.acceptZone {z : ZoneId} {x : Zone} {r : ZoneRt} (own : TimersSound x.defined r) :
    Monitored (acceptMap { s with
      map := { s.map with zones := store s.map.zones z x }, zones := store s.zones z r }) := by
  refine monitored_acceptMap (fun y => ?_) k.fields
  show TimersSound (look (store s.map.zones z x) y).defined (look (store s.zones z r) y)
  by_cases n : z = y
  · subst n; rw [look_store_same, look_store_same]; exact own
  · rw [look_store_ne _ _ n, look_store_ne _ _ n]; exact k.timers y

theorem Monitored.setPoint (action index kind zone : Byte) : Monitored (setPoint action index kind zone s).state := by
  have written (p : PointId) (r : Point) : Monitored (writePoint p r s) := k.accepted rfl rfl rfl rfl
  refine k.inSetup ?_
  dsimp only; split
  · exact k
  · split
    · exact .ofTaken (written _ _)
    · unfold definePoint; split
      · exact k
      · split
        · exact .ofTaken (written _ _)
        · exact k

theorem Monitored.setAisle (action : Byte) (index : Half) (endA endB : Byte) (length : Half)
    (width bearing passage zone : Byte) :
    Monitored (setAisle action index endA endB length width bearing passage zone s).state := by
  have written (x : AisleId) (r : Aisle) : Monitored (acceptMap (setAisleRec x r s)) := k.accepted rfl rfl rfl rfl
  refine k.inSetup ?_
  dsimp only; split
  · exact k
  · split
    · exact .ofTaken (written _ _)
    · unfold defineAisle; split
      · exact k
      · split
        · split
          · exact .ofTaken (written _ _)
          · exact k
        · exact k

theorem Monitored.removeExit (e : ExitId) : Monitored (removeExit e s) := by
  unfold Machine.removeExit; rw [removeExitRt_eq]
  refine k.acceptExit (x := { look s.map.exits e with defined := false }) ?_ _
  exact ⟨nofun, fun _ => rfl⟩

theorem Monitored.defineExit {e : ExitId} {x : Exit} (d : x.defined = true) (known : Bool) :
    Monitored (acceptMap (defineExitRt known e (setExitRec e x s))) := by
  have fresh : (if x.contact.isSome then ExitContact.unknown else .none) = .none ↔ x.contact = none := by
    cases x.contact <;> simp
  rw [defineExitRt_eq, setExitRec_map, look_store_same]
  refine k.acceptExit (.ofDefined d ?_) _
  cases known <;> exact fresh

theorem Monitored.setExitRequest (action index point : Byte) (bias : Half) (row column : Byte) :
    Monitored (Machine.setExit action index point bias row column s).state := by
  refine k.inSetup ?_
  split
  · exact k
  · split
    · exact .ofTaken (k.removeExit _)
    · unfold Machine.defineExit; split
      · exact k
      · split
        · exact .ofTaken (k.defineExit rfl _)
        · exact k

theorem Monitored.defineZone {z : ZoneId} {x : Zone} (d : x.defined = true) :
    Monitored (acceptMap (setZoneRec z x (if (look s.map.zones z).defined then s else setZoneRt z ZoneRt.reset s))) := by
  split
  · next known =>
    have own : TimersSound x.defined (zoneOf s z) := by rw [d]; exact k.zone known
    have same : store s.zones z (zoneOf s z) = s.zones := store_look _ z
    have accepted := k.acceptZone (z := z) own
    rw [same] at accepted; exact accepted
  · exact k.acceptZone (.reset _)

theorem Monitored.setZoneRequest (action index suspect smoke sup : Byte) :
    Monitored (setZone action index suspect smoke sup s).state := by
  refine k.inSetup ?_
  split
  · exact k
  · split
    · exact .ofTaken (k.acceptZone (.reset _))
    · unfold Machine.defineZone; split
      · exact .ofTaken (k.defineZone rfl)
      · exact k

theorem Monitored.placeHead (index : Byte) (serial : Serial) (point facing enabled : Byte) :
    Monitored (placeHead index serial point facing enabled s).state := by
  refine k.inSetup ?_
  split
  · split
    · split
      · exact k
      · split
        · exact k
        · refine .ofTaken ?_
          exact k.accepted rfl rfl rfl rfl
    · exact k
  · exact k

theorem Monitored.unplaceHead (index : Byte) : Monitored (unplaceHead index s).state := by
  refine k.inSetup ?_
  split
  · exact k
  · next h _ =>
    have unplaced : Monitored (unplace h s) := k.of_view (unplace_monitorView h s)
    refine .ofTaken ?_
    exact unplaced.accepted rfl rfl rfl rfl

theorem Monitored.editLibrary (i : Fin 12) (steps : Option (List ScriptStep)) : Monitored (editLibrary i steps s) := by
  have accepted : Monitored (acceptMap (writeScript i steps s)) := k.accepted rfl rfl rfl rfl
  have reloaded := accepted.of_view (HeadsMove.forEach reloadHead reloadHead_moves (acceptMap (writeScript i steps s))).monitorView
  exact reloaded.of_view (recomputeAll_monitorView _)

theorem Monitored.setScript (action script : Byte) (body : List Byte) : Monitored (setScript action script body s).state := by
  unfold Machine.setScript; split
  · refine k.inSetup ?_
    unfold scriptRequest; split
    · exact k
    · split
      · exact k
      · split
        · exact .ofTaken (k.editLibrary _ _)
        · split
          · exact .ofTaken (k.editLibrary _ _)
          · exact k
        · exact k
  · exact k

theorem Monitored.setKindMap (entry script : Byte) : Monitored (setKindMap entry script s).state := by
  refine k.inSetup ?_
  split
  · next i n _ _ =>
    have accepted : Monitored (acceptMap (writeKindMap i n s)) := k.accepted rfl rfl rfl rfl
    exact .ofTaken (accepted.of_view (recomputeAll_monitorView _))
  · exact k

theorem Monitored.clearMap : Monitored (clearMap s).state := by
  refine k.inSetup (.ofTaken ?_)
  exact monitored_reset.of_view ((replaceTable_monitorView _ _).trans (emptyTables_monitorView _))

theorem Monitored.requestAct_map {i : Instr} (o : ownerOf i = .map) : Monitored (requestAct i s).state := by
  cases i
  case clearMap => exact k.clearMap
  case setPoint => exact k.setPoint _ _ _ _
  case setAisle => exact k.setAisle _ _ _ _ _ _ _ _ _
  case setExit => exact k.setExitRequest _ _ _ _ _ _
  case setZone => exact k.setZoneRequest _ _ _ _ _
  case placeHead => exact k.placeHead _ _ _ _ _
  case unplaceHead => exact k.unplaceHead _
  case setScript => exact k.setScript _ _ _
  case setKindMap => exact k.setKindMap _ _
  all_goals exact absurd o nofun

end Map

/-! ## Every command -/

theorem Monitored.requestAct_monitors {i : Instr} {s : State} (k : Monitored s) (o : ownerOf i = .monitors) :
    Monitored (requestAct i s).state := by
  have same {t : State} (e : t = s) : Monitored t := e ▸ k
  cases i
  case zoneReadings => exact k.zoneReadings _
  case confirmZone => exact k.confirmZone _
  case exitOverride => exact k.exitOverride _ _
  case exitBias => exact k.exitBias _ _
  case setNoticeFilter =>
    show Monitored (setNoticeFilter _ s).state
    unfold setNoticeFilter; split
    · exact k.of_view rfl
    · exact k
  case clearNoticeLoss => exact k.of_view rfl
  case getPoint => exact same (getPoint_state _ s)
  case getZone => exact same (getZone_state _ s)
  case getExit => exact same (getExit_state _ s)
  case getHead => exact same (getHead_state _ s)
  case getStatus | getStrangers | confirmTimerExpiry | clearHoldExpiry | zoneSilenceExpiry | gateScan | sweepEnd
    | selectionEnd | publication | panelByteReceived | transmitFrameEnd | unknownType => exact k
  all_goals exact absurd o nofun

theorem Monitored.requestAct {s : State} (k : Monitored s) (i : Instr) : Monitored (requestAct i s).state := by
  cases o : ownerOf i with
  | reset => rw [requestAct_reset s o]; exact k
  | modes => exact k.requestAct_modes o
  | map => exact k.requestAct_map o
  | bus => exact k.of_view (requestAct_onBus s o).monitorView
  | monitors => exact k.requestAct_monitors o

theorem Monitored.eventOf_monitors {c : Instr} {s : State} (k : Monitored s) (o : ownerOf c = .monitors) :
    Monitored (eventOf c s) := by
  cases c
  case confirmTimerExpiry => exact k.confirmExpiry _
  case clearHoldExpiry => exact k.clearHoldExpiry _
  case zoneSilenceExpiry => exact k.silenceExpiry _
  case gateScan => exact k.gateScan _
  case sweepEnd => exact k.of_view (endSweep_monitorView s)
  case selectionEnd => exact k.of_view (endSelection_monitorView s)
  case publication => exact k.of_view (publish_monitorView s)
  case zoneReadings | confirmZone | exitOverride | exitBias | setNoticeFilter | clearNoticeLoss | getPoint | getZone
    | getExit | getHead | getStatus | getStrangers | panelByteReceived | transmitFrameEnd | unknownType => exact k
  all_goals exact absurd o nofun

theorem Monitored.eventOf {s : State} (k : Monitored s) (c : Instr) : Monitored (eventOf c s) := by
  cases o : ownerOf c with
  | reset =>
    obtain ⟨speed, pairEn, role, rfl⟩ := ownerOf_reset o
    exact monitored_iff.mpr ⟨hardReset_zones .., hardReset_exits ..⟩
  | modes =>
    cases c
    case validationComplete => exact k.completeValidation
    case autoAlarmRequest => exact k.autoAlarm
    case restart | arm | disarm | alarm | standDown | setTiming | blockAisle | openAisle => exact k
    all_goals exact absurd o nofun
  | map => rw [eventOf_map s o]; exact k
  | bus => exact k.of_view (eventOf_onBus s o).monitorView
  | monitors => exact k.eventOf_monitors o

end Sys2Proof.Machine

namespace Sys2Proof.Proofs

open Sys2Proof Sys2Proof.Machine

/-- Settles O58: each request and each event of the part's own keeps the zone timers in their states and the exits as
Table 2.3 gives them. -/
theorem stepKeepsZonesAndExits : Obligations.StepKeepsZonesAndExits := by
  unfold Obligations.StepKeepsZonesAndExits
  intro s t hs e
  exact monitored_iff.mp (step_keeps e (monitored_iff.mpr hs) (fun _ _ k => k.of_view rfl) (fun _ _ k => k.of_view rfl)
    (fun _ _ k => k.of_view rfl) (fun i _ k => k.requestAct i) fun c _ k => k.eventOf c)

end Sys2Proof.Proofs
end

section
/-! Readings of smoke levels: what one reading of a defined zone does in each of its states, and ZONE READINGS as its entries
one after another (R23 to R30). -/

namespace Sys2Proof.Machine

/-! ## Operations that act on the link by their notices alone -/

/-- What no reading changes, and the link that it starts from. -/
def settingView (s : State) : MapStore × Timing × Nat × Mode × Link := (s.map, s.timing, s.now, s.mode, s.link)

/-- Whatever the link, the operation makes `u` of the part `s` and offers the notices `ns` (R167). -/
structure ActsBy (f : State → State) (s : State) (ns : List Notice) (u : State) : Prop where
  acts : ∀ l, f { s with link := l } = { u with link := offerAll ns l }
  kept : settingView u = settingView s

theorem ActsBy.refl (s : State) : ActsBy id s [] s := ⟨fun _ => rfl, rfl⟩

theorem ActsBy.trans {f g : State → State} {s u v : State} {ns ms : List Notice} (h : ActsBy f s ns u) (k : ActsBy g u ms v) :
    ActsBy (fun s => g (f s)) s (ns ++ ms) v :=
  ⟨fun l => by rw [h.acts, k.acts, offerAll_append], k.kept.trans h.kept⟩

/-- One operation acts as another does. -/
theorem ActsBy.congr {f g : State → State} {s u : State} {ns : List Notice} (h : ActsBy f s ns u)
    (same : ∀ l, g { s with link := l } = f { s with link := l }) : ActsBy g s ns u :=
  ⟨fun l => (same l).trans (h.acts l), h.kept⟩

theorem engineTakes_link (cs : List (ChangeClass × State)) (l : Link) (g : Engine) :
    engineTakes (cs.map fun c => (c.1, { c.2 with link := l })) g = engineTakes cs g := by
  unfold engineTakes
  rw [List.foldl_map]
  exact List.foldl_ext _ _ _ fun g' c _ => handChange_link c.1 { c.2 with engine := g' } l

theorem zoneMoved_link (z : ZoneId) (new : ZoneState) (s : State) (l : Link) :
    zoneMoved z new { s with link := l } = { zoneMoved z new s with link := l } := by
  have hands : zoneHands z new { s with link := l } = (zoneHands z new s).map fun c => (c.1, { c.2 with link := l }) := by
    unfold zoneHands exitHands
    rw [List.map_append, List.map_map, List.map_map]; rfl
  unfold zoneMoved
  rw [hands, engineTakes_link]; rfl

theorem changeZone_acts (z : ZoneId) (new : ZoneState) (cause : ZoneCause) (s : State) :
    ActsBy (changeZone z new cause) s (zoneNotices z new cause s) (zoneMoved z new s) :=
  ⟨fun l => by rw [changeZone_eq, zoneMoved_link]; rfl, rfl⟩

theorem setZoneRt_acts (f : ZoneRt → ZoneRt) (z : ZoneId) (s : State) :
    ActsBy (fun s => setZoneRt z (f (zoneOf s z)) s) s [] (setZoneRt z (f (zoneOf s z)) s) := ⟨fun _ => rfl, rfl⟩

/-- A zone's record is written, and its state changes. -/
theorem written_acts (f : ZoneRt → ZoneRt) (z : ZoneId) (new : ZoneState) (cause : ZoneCause) (s : State) :
    ActsBy (fun s => changeZone z new cause (setZoneRt z (f (zoneOf s z)) s)) s
      (zoneNotices z new cause (setZoneRt z (f (zoneOf s z)) s)) (zoneMoved z new (setZoneRt z (f (zoneOf s z)) s)) :=
  (setZoneRt_acts f z s).trans (changeZone_acts z new cause _)

/-! ## Judgements (R24 to R27) -/

/-- The confirm timer starts where the level reaches the smoke threshold (R24, R28). -/
def confirming (z : ZoneId) (level : Byte) (s : State) : State := if reachesSmoke s z level then startConfirm z s else s

theorem confirming_link (z : ZoneId) (level : Byte) (s : State) (l : Link) :
    confirming z level { s with link := l } = { confirming z level s with link := l } := by
  have same : reachesSmoke { s with link := l } z level = reachesSmoke s z level := rfl
  unfold confirming; rw [same]; split <;> rfl

theorem confirming_acts (z : ZoneId) (level : Byte) (s : State) : ActsBy (confirming z level) s [] (confirming z level s) :=
  ⟨confirming_link z level s, by unfold confirming; split <;> rfl⟩

section Judgement
variable {z : ZoneId} {level : Byte} {s : State}

theorem judgeClear_low (low : reachesSuspect s z level = false) : ActsBy (judgeClear z level) s [] s :=
  (ActsBy.refl s).congr fun l => by
    have low : reachesSuspect { s with link := l } z level = false := low
    unfold judgeClear; rw [low]; rfl

theorem judgeClear_reached (reached : reachesSuspect s z level = true) :
    ActsBy (judgeClear z level) s (zoneNotices z .suspect .reading (confirming z level s))
      (zoneMoved z .suspect (confirming z level s)) :=
  ((confirming_acts z level s).trans (changeZone_acts z .suspect .reading _)).congr fun _ => if_pos reached

theorem judge_clear (clear : (zoneOf s z).state = .clear) : judge z level s = judgeClear z level s := by
  unfold judge; rw [clear]

theorem judge_suspect (suspect : (zoneOf s z).state = .suspect) : judge z level s = judgeSuspect z level s := by
  unfold judge; rw [suspect]

theorem judge_smoke (smoke : (zoneOf s z).state = .smoke) :
    judge z level s
      = if reachesSuspect s z level then s else changeZone z .clearing .reading (startClearHold z s) := by
  unfold judge; rw [smoke]

theorem judge_clearing (clearing : (zoneOf s z).state = .clearing) :
    judge z level s
      = if reachesSuspect s z level then changeZone z .smoke .reading (stopClearHold z s) else s := by
  unfold judge; rw [clearing]

theorem judge_silent (silent : (zoneOf s z).state = .silent) :
    judge z level s = judgeClear z level (changeZone z .clear .reading s) := by
  unfold judge; rw [silent]

/-- From SUSPECT below the suspect threshold (R25). -/
theorem judge_suspect_low (suspect : (zoneOf s z).state = .suspect) (low : reachesSuspect s z level = false) :
    ActsBy (judge z level) s (zoneNotices z .clear .reading (setZoneRt z { zoneOf s z with confirm := none } s))
      (zoneMoved z .clear (setZoneRt z { zoneOf s z with confirm := none } s)) :=
  (written_acts (fun r => { r with confirm := none }) z .clear .reading s).congr fun l => by
    have low : reachesSuspect { s with link := l } z level = false := low
    rw [judge_suspect (s := { s with link := l }) suspect]
    unfold judgeSuspect; rw [low]; rfl

/-- From SUSPECT between the thresholds (R25). -/
theorem judge_suspect_between (suspect : (zoneOf s z).state = .suspect) (reached : reachesSuspect s z level = true)
    (below : reachesSmoke s z level = false) :
    ActsBy (judge z level) s [] (setZoneRt z { zoneOf s z with confirm := none } s) :=
  (setZoneRt_acts (fun r => { r with confirm := none }) z s).congr fun l => by
    have reached : reachesSuspect { s with link := l } z level = true := reached
    have below : reachesSmoke { s with link := l } z level = false := below
    rw [judge_suspect (s := { s with link := l }) suspect]
    unfold judgeSuspect; rw [reached, below]; rfl

/-- From SUSPECT with the smoke threshold reached: a confirm timer that runs keeps running, toward the expiry it has (R25,
R28). -/
theorem judge_suspect_running (suspect : (zoneOf s z).state = .suspect) (reached : reachesSuspect s z level = true)
    (high : reachesSmoke s z level = true) (runs : (zoneOf s z).confirm.isNone = false) : ActsBy (judge z level) s [] s :=
  (ActsBy.refl s).congr fun l => by
    have reached : reachesSuspect { s with link := l } z level = true := reached
    have high : reachesSmoke { s with link := l } z level = true := high
    have runs : (zoneOf { s with link := l } z).confirm.isNone = false := runs
    rw [judge_suspect (s := { s with link := l }) suspect]
    unfold judgeSuspect; rw [reached, high, runs]; rfl

/-- From SUSPECT with the smoke threshold reached: a stopped confirm timer starts (R25, R28). -/
theorem judge_suspect_starting (suspect : (zoneOf s z).state = .suspect) (reached : reachesSuspect s z level = true)
    (high : reachesSmoke s z level = true) (stopped : (zoneOf s z).confirm.isNone = true) :
    ActsBy (judge z level) s []
      (setZoneRt z { zoneOf s z with confirm := some (s.now + seconds s.timing.confirmTime) } s) :=
  (setZoneRt_acts (fun r => { r with confirm := some (s.now + seconds s.timing.confirmTime) }) z s).congr fun l => by
    have reached : reachesSuspect { s with link := l } z level = true := reached
    have high : reachesSmoke { s with link := l } z level = true := high
    have stopped : (zoneOf { s with link := l } z).confirm.isNone = true := stopped
    rw [judge_suspect (s := { s with link := l }) suspect]
    unfold judgeSuspect; rw [reached, high, stopped]; rfl

/-- From SMOKE and from CLEARING on the side of the suspect threshold that leaves the state (R26). -/
theorem judge_stays (state : (zoneOf s z).state = .smoke ∧ reachesSuspect s z level = true
      ∨ (zoneOf s z).state = .clearing ∧ reachesSuspect s z level = false) : ActsBy (judge z level) s [] s :=
  (ActsBy.refl s).congr fun l => by
    rcases state with ⟨state, reaches⟩ | ⟨state, reaches⟩
    · exact (judge_smoke (s := { s with link := l }) state).trans (if_pos reaches)
    · exact (judge_clearing (s := { s with link := l }) state).trans (if_neg (Bool.eq_false_iff.mp reaches))

/-- From SMOKE below the suspect threshold (R26, R29). -/
theorem judge_smoke_low (smoke : (zoneOf s z).state = .smoke) (low : reachesSuspect s z level = false) :
    ActsBy (judge z level) s
      (zoneNotices z .clearing .reading
        (setZoneRt z { zoneOf s z with clearHold := some (s.now + seconds s.timing.clearHold) } s))
      (zoneMoved z .clearing (setZoneRt z { zoneOf s z with clearHold := some (s.now + seconds s.timing.clearHold) } s)) :=
  (written_acts (fun r => { r with clearHold := some (s.now + seconds s.timing.clearHold) }) z .clearing .reading
    s).congr fun l => by
      exact (judge_smoke (s := { s with link := l }) smoke).trans (if_neg (Bool.eq_false_iff.mp low))

/-- From CLEARING with the suspect threshold reached (R27, R29). -/
theorem judge_clearing_reached (clearing : (zoneOf s z).state = .clearing) (reached : reachesSuspect s z level = true) :
    ActsBy (judge z level) s (zoneNotices z .smoke .reading (setZoneRt z { zoneOf s z with clearHold := none } s))
      (zoneMoved z .smoke (setZoneRt z { zoneOf s z with clearHold := none } s)) :=
  (written_acts (fun r => { r with clearHold := none }) z .smoke .reading s).congr fun l => by
    exact (judge_clearing (s := { s with link := l }) clearing).trans (if_pos reached)

theorem judge_clear_acts (clear : (zoneOf s z).state = .clear) {ns : List Notice} {u : State}
    (h : ActsBy (judgeClear z level) s ns u) : ActsBy (judge z level) s ns u :=
  h.congr fun l => judge_clear (s := { s with link := l }) clear

/-- From SILENT: the zone is CLEAR, and then judged as CLEAR is (R27). -/
theorem judge_silent_acts (silent : (zoneOf s z).state = .silent) {ns : List Notice} {u : State}
    (h : ActsBy (judgeClear z level) (zoneMoved z .clear s) ns u) :
    ActsBy (judge z level) s (zoneNotices z .clear .reading s ++ ns) u :=
  ((changeZone_acts z .clear .reading s).trans h).congr fun l => judge_silent (s := { s with link := l }) silent

/-- Every judgement acts on the link by its notices alone. -/
theorem judge_acts (z : ZoneId) (level : Byte) (s : State) : ∃ ns u, ActsBy (judge z level) s ns u := by
  have fromClear (s : State) : ∃ ns u, ActsBy (judgeClear z level) s ns u := by
    cases reaches : reachesSuspect s z level
    · exact ⟨_, _, judgeClear_low reaches⟩
    · exact ⟨_, _, judgeClear_reached reaches⟩
  cases state : (zoneOf s z).state
  case clear =>
    obtain ⟨ns, u, h⟩ := fromClear s
    exact ⟨ns, u, judge_clear_acts state h⟩
  case silent =>
    obtain ⟨ns, u, h⟩ := fromClear (zoneMoved z .clear s)
    exact ⟨_, u, judge_silent_acts state h⟩
  all_goals cases reaches : reachesSuspect s z level
  case suspect.false => exact ⟨_, _, judge_suspect_low state reaches⟩
  case suspect.true =>
    cases smoke : reachesSmoke s z level
    · exact ⟨_, _, judge_suspect_between state reaches smoke⟩
    · cases runs : (zoneOf s z).confirm.isNone
      · exact ⟨_, _, judge_suspect_running state reaches smoke runs⟩
      · exact ⟨_, _, judge_suspect_starting state reaches smoke runs⟩
  case smoke.false => exact ⟨_, _, judge_smoke_low state reaches⟩
  case smoke.true => exact ⟨_, _, judge_stays (.inl ⟨state, reaches⟩)⟩
  case clearing.false => exact ⟨_, _, judge_stays (.inr ⟨state, reaches⟩)⟩
  case clearing.true => exact ⟨_, _, judge_clearing_reached state reaches⟩

end Judgement

/-! ## One reading (R23) -/

theorem restartSilence_acts (z : ZoneId) (s : State) : ActsBy (restartSilence z) s [] (restartSilence z s) := by
  have same (l : Link) : (supervised { s with link := l } z && watched (zoneOf { s with link := l } z).state)
      = (supervised s z && watched (zoneOf s z).state) := rfl
  refine ⟨fun l => ?_, ?_⟩
  · unfold restartSilence; rw [same]; split <;> rfl
  · unfold restartSilence; split <;> rfl

theorem takeReading_acts {z : ZoneId} {level : Byte} {s u : State} {ns : List Notice}
    (h : ActsBy (judge z level) (setZoneRt z { zoneOf s z with lastReading := some level } s) ns u) :
    ActsBy (takeReading z level) s ns (restartSilence z u) := by
  have read := (setZoneRt_acts (fun r => { r with lastReading := some level }) z s).trans (h.trans (restartSilence_acts z u))
  rw [List.nil_append, List.append_nil] at read
  exact read

/-! ## Entries one after another (R23) -/

/-- An entry names a defined zone. -/
def namesZone (s : State) (e : Byte × Byte) : Prop := ∃ z : ZoneId, e.1.toNat = z.val ∧ (look s.map.zones z).defined = true

theorem definedZone_some {s : State} {index : Byte} {z : ZoneId} (hz : index.toNat = z.val)
    (d : (look s.map.zones z).defined = true) : definedZone s index = some z := by
  unfold definedZone; rw [indexOf_some hz]; exact if_pos d

theorem definedZone_none {s : State} {index : Byte}
    (h : ∀ z : ZoneId, index.toNat = z.val → (look s.map.zones z).defined = false) : definedZone s index = none := by
  unfold definedZone
  split
  · next z found =>
    have named := indexOf_eq_some.mp found
    rw [h z named.symm]; rfl
  · rfl

theorem definedZone_isSome (s : State) (e : Byte × Byte) : (definedZone s e.1).isSome ↔ namesZone s e := by
  constructor
  · intro found
    obtain ⟨z, found⟩ := Option.isSome_iff_exists.mp found
    refine ⟨z, ?_, definedZone_defined found⟩
    unfold definedZone at found
    split at found
    · next y index =>
      split at found
      · cases found; exact (indexOf_eq_some.mp index).symm
      · cases found
    · cases found
  · rintro ⟨z, named, d⟩
    rw [definedZone_some named d]; rfl

/-- The entries are taken one after another, offering the notices given and leaving the part given (R23). -/
inductive ReadBy : List (Byte × Byte) → State → List Notice → State → Prop
  | nil (s : State) : ReadBy [] s [] s
  | skip {index level : Byte} {rest : List (Byte × Byte)} {s u : State} {ns : List Notice} (none : definedZone s index = none)
      (later : ReadBy rest s ns u) : ReadBy ((index, level) :: rest) s ns u
  | take {index level : Byte} {rest : List (Byte × Byte)} {s v u : State} {ns ms : List Notice} {z : ZoneId}
      (found : definedZone s index = some z) (read : ActsBy (takeReading z level) s ns v) (later : ReadBy rest v ms u) :
      ReadBy ((index, level) :: rest) s (ns ++ ms) u

theorem readBy_exists (entries : List (Byte × Byte)) (s : State) : ∃ ns u, ReadBy entries s ns u := by
  induction entries generalizing s with
  | nil => exact ⟨_, _, .nil s⟩
  | cons e rest ih =>
    obtain ⟨index, level⟩ := e
    cases found : definedZone s index with
    | some z =>
      obtain ⟨ns, v, h⟩ := judge_acts z level (setZoneRt z { zoneOf s z with lastReading := some level } s)
      obtain ⟨ms, u, k⟩ := ih (restartSilence z v)
      exact ⟨_, _, .take found (takeReading_acts h) k⟩
    | none =>
      obtain ⟨ms, u, k⟩ := ih s
      exact ⟨_, _, .skip found k⟩

theorem ReadBy.acts {entries : List (Byte × Byte)} {s u : State} {ns : List Notice} (h : ReadBy entries s ns u) :
    ActsBy (fun s => (takeReadings entries s).2) s ns u := by
  have same (s : State) (l : Link) (index : Byte) : definedZone { s with link := l } index = definedZone s index := rfl
  induction h with
  | nil s => exact .refl s
  | skip none later ih => exact ih.congr fun l => by rw [takeReadings, same, none]
  | take found read later ih => exact (read.trans ih).congr fun l => by rw [takeReadings, same, found]

/-- The entries of two parts are taken as those of the first, then those of the second. -/
theorem ReadBy.parts {first rest : List (Byte × Byte)} {s u : State} {ns : List Notice} (h : ReadBy (first ++ rest) s ns u) :
    ∃ n₁ v n₂, ReadBy first s n₁ v ∧ ReadBy rest v n₂ u ∧ ns = n₁ ++ n₂ := by
  induction first generalizing s ns with
  | nil => exact ⟨[], s, ns, .nil s, h, rfl⟩
  | cons e first ih =>
    cases h with
    | skip none later =>
      obtain ⟨n₁, v, n₂, h₁, h₂, rfl⟩ := ih later
      exact ⟨n₁, v, n₂, .skip none h₁, h₂, rfl⟩
    | take found read later =>
      obtain ⟨n₁, v, n₂, h₁, h₂, rfl⟩ := ih later
      exact ⟨_, v, n₂, .take found read h₁, h₂, (List.append_assoc ..).symm⟩

/-- One entry for no defined zone leaves the part as it is (R23). -/
theorem ReadBy.unnamed {index level : Byte} {s u : State} {ns : List Notice} (h : ReadBy [(index, level)] s ns u)
    (none : definedZone s index = none) : u = s := by
  cases h with
  | skip _ later => cases later; rfl
  | take found => rw [none] at found; cases found

/-- An entry is skipped where it names no defined zone (R23). -/
theorem takeReadings_skips (entries : List (Byte × Byte)) (s : State) :
    (takeReadings entries s).1 = true ↔ ∃ e ∈ entries, ¬namesZone s e := by
  have names {t : State} (map : t.map = s.map) (e : Byte × Byte) : namesZone t e ↔ namesZone s e := by
    unfold namesZone; rw [map]
  suffices steps : ∀ (es : List (Byte × Byte)) (t : State), t.map = s.map →
      ((takeReadings es t).1 = true ↔ ∃ e ∈ es, ¬namesZone s e) from steps entries s rfl
  intro es
  induction es with
  | nil => intro t _; simp [takeReadings]
  | cons e rest ih =>
    intro t map
    obtain ⟨index, level⟩ := e
    have known := definedZone_isSome t (index, level)
    rw [names map] at known
    cases found : definedZone t index with
    | some z =>
      have zone : namesZone s (index, level) := known.mp (by rw [found]; rfl)
      have moved : (takeReading z level t).map = s.map := by
        obtain ⟨⟨_, _, _, _, _, _, _, _, _, e⟩, -, -⟩ := takeReading_monitor z level t
        rw [e]; exact map
      rw [takeReadings, found]
      simp only [ih _ moved, List.mem_cons, exists_eq_or_imp, zone, not_true_eq_false, false_or]
    | none =>
      have unnamed : ¬namesZone s (index, level) := fun zone => by
        have some? := known.mpr zone
        rw [found] at some?; cases some?
      rw [takeReadings, found]
      exact ⟨fun _ => ⟨_, List.mem_cons_self .., unnamed⟩, fun _ => rfl⟩

/-! ## The request -/

theorem zoneReadings_length {entries : List (Byte × Byte)} (h : entries.length = 0 ∨ 64 < entries.length) (s : State) :
    zoneReadings entries s = refuse .badLength s := if_pos h

/-- ZONE READINGS of 1 to 64 entries (R23). -/
theorem serves_readings {tag : Byte} {entries : List (Byte × Byte)} {s u : State} {ns : List Notice} (hr : Ready s)
    (low : 1 ≤ entries.length) (high : entries.length ≤ 64) (h : ActsBy (fun s => (takeReadings entries s).2) s ns u) :
    Serves (.zoneReadings tag entries) s (if (takeReadings entries (begun s)).1 then .badIndex else .done) [] ns
      fun t => { t with link := s.link } = u := by
  have act : zoneReadings entries (begun s)
      = taken (if (takeReadings entries (begun s)).1 then .badIndex else .done) (takeReadings entries (begun s)).2 :=
    if_neg fun none => by
      have : Config.readingLimit = 64 := rfl
      omega
  have done : (takeReadings entries (begun s)).2 = { u with link := servingLink ns s } := h.acts _
  rw [done] at act
  refine serves_by rfl (exec_zoneReadings tag entries s) hr act rfl (by simp [taken]) rfl fun l => ?_
  have kept : u.link = s.link := congrArg (fun v => v.2.2.2.2) h.kept
  dsimp only [taken]; rw [← kept]

/-- ZONE READINGS of one entry for a defined zone (R23). -/
theorem serves_reading {tag index level : Byte} {z : ZoneId} {s u : State} {ns : List Notice} (hr : Ready s)
    (named : index.toNat = z.val) (d : (look s.map.zones z).defined = true)
    (h : ActsBy (judge z level) (setZoneRt z { zoneOf s z with lastReading := some level } s) ns u) :
    Serves (.zoneReadings tag [(index, level)]) s .done [] ns fun t => { t with link := s.link } = restartSilence z u := by
  have one (t : State) (map : t.map = s.map) : takeReadings [(index, level)] t = (false, takeReading z level t) := by
    have found : definedZone t index = some z := definedZone_some named (by rw [map]; exact d)
    rw [takeReadings, found]; rfl
  have acts : ActsBy (fun s => (takeReadings [(index, level)] s).2) s ns (restartSilence z u) :=
    (takeReading_acts h).congr fun l => congrArg Prod.snd (one { s with link := l } rfl)
  have served := serves_readings (tag := tag) (entries := [(index, level)]) hr (Nat.le_refl 1) (Nat.le_of_ble_eq_true rfl) acts
  rwa [one (begun s) rfl] at served

/-- The silence timer restarts by the settings and the clock of the part before the judgement. -/
theorem restartSilence_eq {z : ZoneId} {s u : State} (kept : settingView u = settingView s) :
    restartSilence z u
      = if (look s.map.zones z).supervised && watched (zoneOf u z).state then
          setZoneRt z { zoneOf u z with silence := some (s.now + 1000 * s.timing.silenceTime) } u
        else u := by
  obtain ⟨map, timing, now, -, -⟩ := by simpa only [settingView, Prod.mk.injEq] using kept
  unfold restartSilence supervised startSilence seconds; rw [map, timing, now]

end Sys2Proof.Machine

namespace Sys2Proof.Proofs

open Sys2Proof Sys2Proof.Machine

/-- Settles O29: one reading by the state of its zone and the thresholds that it reaches. -/
theorem oneReading : Obligations.OneReading := by
  unfold Obligations.OneReading
  intro tag index level s z hr named d zone r soon held at_ restarted answers moves low high ordered
  have record (x : ZoneRt) : zoneOf (at_ x) z = x := zoneOf_setZoneRt_same z x s
  have twice (f : ZoneRt → ZoneRt) : setZoneRt z (f (zoneOf (at_ r) z)) (at_ r) = at_ (f r) := setZoneRt_rewrite f z r s
  have under (u : State) (map : u.map = s.map) (h : low) : reachesSuspect u z level = false := by
    unfold reachesSuspect; rw [map]; exact decide_eq_false (Nat.not_le.mpr h)
  have reached (u : State) (map : u.map = s.map) (h : ¬low) : reachesSuspect u z level = true := by
    unfold reachesSuspect; rw [map]; exact decide_eq_true (Nat.not_lt.mp h)
  have below (u : State) (map : u.map = s.map) (h : ¬high) : reachesSmoke u z level = false := by
    unfold reachesSmoke; rw [map]; exact decide_eq_false h
  have smokes (u : State) (map : u.map = s.map) (h : high) : reachesSmoke u z level = true := by
    unfold reachesSmoke; rw [map]; exact decide_eq_true h
  have notLow (h : high) : ¬low := fun l => by
    have : zone.smoke ≤ level.toNat := h
    have : level.toNat < zone.suspect := l
    omega
  have answered {ns : List Notice} {u : State} (h : ActsBy (judge z level) (at_ r) ns u) : answers ns u := by
    have served := serves_reading (tag := tag) hr named d h
    rwa [restartSilence_eq (s := s) h.kept] at served
  split
  · next clear =>
    have clear : (zoneOf (at_ r) z).state = .clear := by rw [record]; exact clear
    have judged {l : List Notice} {u : State} (h : ActsBy (judgeClear z level) (at_ r) l u) : answers l u :=
      answered (judge_clear_acts clear h)
    have rises (h : ¬low) := judged (judgeClear_reached (reached (at_ r) rfl h))
    refine ⟨fun h => judged (judgeClear_low (under _ rfl h)), fun h n => ?_, fun h => ?_⟩
    · have stays : confirming z level (at_ r) = at_ r := if_neg (by rw [below (at_ r) rfl n]; nofun)
      have rise := rises h
      rwa [stays] at rise
    · have starts : confirming z level (at_ r) = at_ { r with confirm := soon } :=
        (if_pos (smokes (at_ r) rfl h)).trans (twice fun x => { x with confirm := soon })
      have rise := rises (notLow h)
      rwa [starts] at rise
  · next suspect =>
    have suspect : (zoneOf (at_ r) z).state = .suspect := by rw [record]; exact suspect
    have stopped := twice fun x => { x with confirm := none }
    refine ⟨fun h => ?_, fun h n => ?_, fun h => ?_⟩
    · have falls := answered (judge_suspect_low suspect (under _ rfl h))
      rwa [stopped] at falls
    · have stops := answered (judge_suspect_between suspect (reached _ rfl h) (below _ rfl n))
      rwa [stopped] at stops
    · by_cases runs : r.confirm.isSome = true
      · rw [if_pos runs]
        exact answered (judge_suspect_running suspect (reached _ rfl (notLow h)) (smokes _ rfl h)
          (by rw [record]; simpa using runs))
      · rw [if_neg runs]
        have starts := answered (judge_suspect_starting suspect (reached _ rfl (notLow h)) (smokes _ rfl h)
          (by rw [record]; simpa using runs))
        rwa [twice fun x => { x with confirm := some ((at_ r).now + seconds (at_ r).timing.confirmTime) }] at starts
  · next smoke =>
    have smoke : (zoneOf (at_ r) z).state = .smoke := by rw [record]; exact smoke
    refine ⟨fun h => ?_, fun h => answered (judge_stays (.inl ⟨smoke, reached _ rfl h⟩))⟩
    have moved := answered (judge_smoke_low smoke (under _ rfl h))
    rwa [twice fun x => { x with clearHold := some ((at_ r).now + seconds (at_ r).timing.clearHold) }] at moved
  · next clearing =>
    have clearing : (zoneOf (at_ r) z).state = .clearing := by rw [record]; exact clearing
    refine ⟨fun h => answered (judge_stays (.inr ⟨clearing, under _ rfl h⟩)), fun h => ?_⟩
    have moved := answered (judge_clearing_reached clearing (reached _ rfl h))
    rwa [twice fun x => { x with clearHold := none }] at moved
  · next silent =>
    have silent : (zoneOf (at_ r) z).state = .silent := by rw [record]; exact silent
    intro u v
    have judged {l : List Notice} {w : State} (h : ActsBy (judgeClear z level) u l w) :
        answers (zoneNotices z .clear .reading (at_ r) ++ l) w := answered (judge_silent_acts silent h)
    have starts : confirming z level u = v := by
      by_cases h : high
      · exact (if_pos (smokes u rfl h)).trans (if_pos h).symm
      · exact (if_neg (by rw [below u rfl h]; nofun)).trans (if_neg h).symm
    refine ⟨fun h => ?_, fun h => ?_⟩
    · have quiet := judged (judgeClear_low (under u rfl h))
      rwa [List.append_nil] at quiet
    · have rises := judged (judgeClear_reached (reached u rfl h))
      rwa [starts] at rises

/-- Settles O30: the entries are taken one after another, so those of the parts are. -/
theorem readingsInOrder : Obligations.ReadingsInOrder := by
  unfold Obligations.ReadingsInOrder
  intro tag entries s hr
  refine ⟨fun h => refuses_by rfl (exec_zoneReadings tag entries s) hr (zoneReadings_length h _), fun low high => ?_⟩
  intro known
  obtain ⟨ns, u, h⟩ := readBy_exists entries s
  have skips := takeReadings_skips entries (begun s)
  obtain ⟨map, timing, now, mode, -⟩ := by simpa only [settingView, Prod.mk.injEq] using h.acts.kept
  refine ⟨_, ns, u, serves_readings hr low high h.acts, map, timing, now, mode, fun all => ?_, fun some => ?_, ?_, ?_⟩
  · exact if_neg fun skipped => by
      obtain ⟨e, mem, unknown⟩ := skips.mp skipped
      exact unknown (all e mem)
  · exact if_pos (skips.mpr some)
  · rintro index level rfl unknown
    refine h.unnamed (definedZone_none fun z named => ?_)
    by_contra d
    exact unknown ⟨z, named, by simpa using d⟩
  · rintro first rest rfl some₁ some₂
    have length := List.length_append (as := first) (bs := rest)
    have first₁ := List.length_pos_of_ne_nil some₁
    have rest₁ := List.length_pos_of_ne_nil some₂
    obtain ⟨n₁, v, n₂, h₁, h₂, rfl⟩ := h.parts
    have link : v.link = s.link := congrArg (fun w => w.2.2.2.2) h₁.acts.kept
    have ready : Ready v := by unfold Ready readyToServe; rw [link]; exact hr
    have served₂ := serves_readings (tag := tag) ready (by omega) (by omega) h₂.acts
    rw [link] at served₂
    exact ⟨_, n₁, v, _, n₂, serves_readings hr (by omega) (by omega) h₁.acts, served₂, rfl⟩

end Sys2Proof.Proofs
end

section
/-! CONFIRM ZONE and the expiries of the three zone timers (R28 to R31, R33, R44). -/

namespace Sys2Proof.Machine

/-! ## CONFIRM ZONE -/

theorem confirmZone_unnamed {index : Byte} {s : State} (h : definedZone s index = none) :
    confirmZone index s = refuse .badIndex s := by unfold confirmZone; rw [h]

theorem confirmZone_smoke {index : Byte} {z : ZoneId} {s : State} (found : definedZone s index = some z)
    (smoke : (zoneOf s z).state = .smoke) :
    confirmZone index s
      = taken .done (setZoneRt z { zoneOf s z with confirm := none, clearHold := none, silence := none } s) := by
  unfold confirmZone; rw [found, ← stopTimers_eq]
  exact congrArg (taken .done) (if_pos smoke)

theorem confirmZone_other {index : Byte} {z : ZoneId} {s : State} (found : definedZone s index = some z)
    (other : (zoneOf s z).state ≠ .smoke) :
    confirmZone index s
      = taken .done (changeZone z .smoke .confirmZone
          (setZoneRt z { zoneOf s z with confirm := none, clearHold := none, silence := none } s)) := by
  unfold confirmZone; rw [found, ← stopTimers_eq]
  exact congrArg (taken .done) (if_neg other)

/-! ## Expiries -/

section Expiry
variable {z : ZoneId} {s : State}

theorem confirmExpiry_stopped (stopped : (zoneOf s z).confirm = none) : confirmExpiry z s = s := by
  unfold confirmExpiry; rw [stopped]

theorem clearHoldExpiry_stopped (stopped : (zoneOf s z).clearHold = none) : clearHoldExpiry z s = s := by
  unfold clearHoldExpiry; rw [stopped]

theorem silenceExpiry_stopped (stopped : (zoneOf s z).silence = none) : silenceExpiry z s = s := by
  unfold silenceExpiry; rw [stopped]

variable {time : Nat}

/-- The confirm timer takes a zone from SUSPECT to SMOKE (R28). -/
theorem confirmExpiry_suspect (runs : (zoneOf s z).confirm = some time) (suspect : (zoneOf s z).state = .suspect) :
    confirmExpiry z s = changeZone z .smoke .confirmExpiry
      (setZoneRt z { zoneOf s z with confirm := none, silence := none } (reachTime time s)) := by
  unfold confirmExpiry; rw [runs]
  exact (if_pos suspect).trans (congrArg _ (stopSilence_stopConfirm z (reachTime time s)))

/-- The clear-hold timer takes a zone from CLEARING to CLEAR, and a supervised zone's silence timer starts (R29). -/
theorem clearHoldExpiry_clearing (runs : (zoneOf s z).clearHold = some time) (clearing : (zoneOf s z).state = .clearing) :
    clearHoldExpiry z s = changeZone z .clear .clearHoldExpiry
      (setZoneRt z { zoneOf s z with
          clearHold := none
          silence := if (look s.map.zones z).supervised then some (max s.now time + 1000 * s.timing.silenceTime)
            else (zoneOf s z).silence }
        (reachTime time s)) := by
  unfold clearHoldExpiry; rw [runs]
  refine (if_pos clearing).trans (congrArg _ ?_)
  by_cases v : (look s.map.zones z).supervised = true
  · rw [if_pos v, if_pos (show supervised s z = true from v)]
    exact startSilence_stopClearHold z (reachTime time s)
  · rw [if_neg v, if_neg (show ¬supervised s z = true from v)]; rfl

/-- The silence timer takes a supervised zone from CLEAR or SUSPECT to SILENT (R30). -/
theorem silenceExpiry_watched (runs : (zoneOf s z).silence = some time)
    (state : (zoneOf s z).state = .clear ∨ (zoneOf s z).state = .suspect) (v : (look s.map.zones z).supervised = true) :
    silenceExpiry z s = changeZone z .silent .silenceExpiry
      (setZoneRt z { zoneOf s z with silence := none, confirm := none } (reachTime time s)) := by
  have watches : (supervised s z && watched (zoneOf s z).state) = true := by
    unfold supervised; rw [v]
    rcases state with e | e <;> rw [e] <;> rfl
  unfold silenceExpiry; rw [runs]
  exact (if_pos watches).trans (congrArg _ (stopConfirm_stopSilence z (reachTime time s)))

/-- In a zone that is no longer supervised the silence timer stops alone (R30). -/
theorem silenceExpiry_unsupervised (runs : (zoneOf s z).silence = some time) (v : (look s.map.zones z).supervised = false) :
    silenceExpiry z s = setZoneRt z { zoneOf s z with silence := none } (reachTime time s) := by
  have quiet : ¬(supervised s z && watched (zoneOf s z).state) = true := by
    unfold supervised; rw [v]; nofun
  unfold silenceExpiry; rw [runs]
  exact if_neg quiet

end Expiry

end Sys2Proof.Machine

namespace Sys2Proof.Proofs

open Sys2Proof Sys2Proof.Machine

/-- Settles O31: CONFIRM ZONE by the state it meets, each expiry by its timer, and the table of zone changes row by row. -/
theorem confirmZoneAndTimers : Obligations.ConfirmZoneAndTimers := by
  unfold Obligations.ConfirmZoneAndTimers
  refine ⟨fun tag index s hr => ?_, fun z s => ?_, fun old new => ?_⟩
  · have hx := exec_confirmZone tag index s
    refine ⟨fun none => refuses_by rfl hx hr (confirmZone_unnamed (definedZone_none none)), fun z named d => ?_⟩
    intro u
    have found : definedZone (begun s) index = some z := definedZone_some named d
    refine ⟨fun smoke => ?_, fun other => ?_⟩
    · exact serves_by rfl hx hr (confirmZone_smoke found smoke) rfl rfl rfl fun _ => rfl
    · have act := (confirmZone_other found other).trans
        (congrArg (taken .done) ((changeZone_acts z .smoke .confirmZone u).acts (begun s).link))
      exact serves_by rfl hx hr act rfl rfl rfl fun _ => rfl
  · intro r at_ moves
    have moved {i : Instr} {t u : State} {new : ZoneState} {cause : ZoneCause} (hx : exec i s = .next t)
        (h : t = changeZone z new cause u) (link : u.link = s.link) : moves i new cause u := by
      rw [changeZone_eq, link] at h
      exact hx.trans (congrArg _ h)
    refine ⟨fun h => ?_, fun h => ?_, fun h => ?_, fun time h e => ?_, fun time h e => ?_, fun time h e v => ?_,
      fun time h v => ?_⟩
    · exact (exec_confirmTimerExpiry z s).trans (congrArg _ (confirmExpiry_stopped h))
    · exact (exec_clearHoldExpiry z s).trans (congrArg _ (clearHoldExpiry_stopped h))
    · exact (exec_zoneSilenceExpiry z s).trans (congrArg _ (silenceExpiry_stopped h))
    · exact moved (exec_confirmTimerExpiry z s) (confirmExpiry_suspect h e) rfl
    · exact moved (exec_clearHoldExpiry z s) (clearHoldExpiry_clearing h e) rfl
    · exact moved (exec_zoneSilenceExpiry z s) (silenceExpiry_watched h e v) rfl
    · exact (exec_zoneSilenceExpiry z s).trans (congrArg _ (silenceExpiry_unsupervised h v))
  · cases old <;> cases new <;> decide

end Sys2Proof.Proofs
end

section
/-! EXIT OVERRIDE and EXIT BIAS, and the availability of an exit by Table 2.3 (R40 to R44). -/

namespace Sys2Proof.Machine

/-! ## The checks -/

theorem definedExit_some {s : State} {index : Byte} {e : ExitId} (named : index.toNat = e.val)
    (d : (look s.map.exits e).defined = true) : definedExit s index = some e := by
  unfold definedExit; rw [indexOf_some named]; exact if_pos d

theorem definedExit_none {s : State} {index : Byte}
    (h : ∀ e : ExitId, index.toNat = e.val → (look s.map.exits e).defined = false) : definedExit s index = none := by
  unfold definedExit
  split
  · next e found => rw [h e (indexOf_eq_some.mp found).symm]; rfl
  · rfl

theorem overrideOf_none {b : Byte} (h : 3 ≤ b.toNat) : overrideOf b = none := by
  unfold overrideOf; split
  · omega
  · omega
  · omega
  · rfl

section Override
variable {index value : Byte} {s : State}

theorem exitOverride_setup (hm : s.mode = .setup) : exitOverride index value s = refuse .wrongMode s := if_pos hm

theorem exitOverride_unnamed (hm : s.mode ≠ .setup) (h : definedExit s index = none) :
    exitOverride index value s = refuse .badIndex s := by
  unfold exitOverride; rw [if_neg hm, h]

theorem exitOverride_badValue {e : ExitId} (hm : s.mode ≠ .setup) (found : definedExit s index = some e)
    (h : overrideOf value = none) : exitOverride index value s = refuse .badValue s := by
  unfold exitOverride; rw [if_neg hm, found]; dsimp only; rw [h]

theorem exitOverride_taken {e : ExitId} {o : Override} (hm : s.mode ≠ .setup) (found : definedExit s index = some e)
    (h : overrideOf value = some o) :
    exitOverride index value s = taken .done (reevalExit true e (setExitRt e { exitOf s e with override := o } s)) := by
  unfold exitOverride; rw [if_neg hm, found]; dsimp only; rw [h]

end Override

section Bias
variable {index : Byte} {value : Half} {s : State}

theorem exitBias_setup (hm : s.mode = .setup) : exitBias index value s = refuse .wrongMode s := if_pos hm

theorem exitBias_unnamed (hm : s.mode ≠ .setup) (h : definedExit s index = none) :
    exitBias index value s = refuse .badIndex s := by
  unfold exitBias; rw [if_neg hm, h]

theorem exitBias_taken {e : ExitId} (hm : s.mode ≠ .setup) (found : definedExit s index = some e) :
    exitBias index value s
      = taken (if 5000 < value.toNat then .clamped else .done) (writeBias e (min 5000 value.toNat) s) := by
  have bias : clampTo 0 Config.biasLimit value.toNat = min 5000 value.toNat := clampTo_zero _ _
  unfold exitBias; rw [if_neg hm, found, ← bias]; rfl

end Bias

/-! ## One exit written and re-evaluated (R40, R43) -/

/-- The exit keeps its availability. -/
theorem reevalExit_same {e : ExitId} {r : ExitRt} {s : State} (same : availabilityOf (setExitRt e r s) e = r.available) :
    reevalExit true e (setExitRt e r s) = setExitRt e r s :=
  if_neg fun h => h.2 (by rw [exitOf_setExitRt_same]; exact same)

/-- The availability of a defined exit changes: its EXIT notice is offered and the change handed over (Table 2.4). -/
theorem reevalExit_changes {e : ExitId} {r : ExitRt} {s v : State} (d : (look s.map.exits e).defined = true)
    (new : availabilityOf (setExitRt e r s) e ≠ r.available)
    (hv : v = setExitRt e { r with available := availabilityOf (setExitRt e r s) e } s) :
    reevalExit true e (setExitRt e r s)
      = { v with
          engine := (handChange (availabilityClass (availabilityOf (setExitRt e r s) e)) v).engine
          link := offerLink (exitNotice v e) s.link } := by
  have stored : exitOf (setExitRt e r s) e = r := exitOf_setExitRt_same ..
  have twice : setExitRt e { r with available := availabilityOf (setExitRt e r s) e } (setExitRt e r s) = v := by
    rw [hv]; unfold setExitRt; dsimp only; rw [store_store]
  have moves : ((look s.map.exits e).defined && (availabilityOf (setExitRt e r s) e != r.available)) = true := by
    rw [d, Bool.true_and]; exact bne_iff_ne.mpr new
  rw [reevalExit_eq, stored, twice]
  exact if_pos moves

/-! ## A runtime bias written (R42) -/

/-- The bias is written, and the engine takes the change of an AVAILABLE exit by the class of Table 2.4. -/
theorem writeBias_frame (e : ExitId) (b : Nat) (s : State) :
    ∃ g, writeBias e b s = { setExitRt e { exitOf s e with bias := b } s with engine := g }
      ∧ ((exitOf s e).available = false ∨ b = (exitOf s e).bias → g = s.engine)
      ∧ ∀ c, (exitOf s e).available = true → biasClass (exitOf s e).bias b = some c →
          g = (handChange c (setExitRt e { exitOf s e with bias := b } s)).engine := by
  unfold writeBias; dsimp only
  by_cases available : (exitOf s e).available = true
  · rw [if_pos available]
    cases class_ : biasClass (exitOf s e).bias b with
    | none => exact ⟨_, rfl, fun _ => rfl, nofun⟩
    | some c =>
      obtain ⟨g, handed⟩ := handChange_frame c (setExitRt e { exitOf s e with bias := b } s)
      refine ⟨g, handed, fun quiet => ?_, fun c' _ same => ?_⟩
      · rcases quiet with h | h
        · rw [available] at h; cases h
        · unfold biasClass at class_; rw [h] at class_; simp at class_
      · cases same; rw [handed]
  · rw [if_neg available]
    exact ⟨_, rfl, fun _ => rfl, fun _ h => absurd h available⟩

theorem biasClass_raised {old new : Nat} (h : old < new) : biasClass old new = some .tightening := if_pos h

theorem biasClass_lowered {old new : Nat} (h : new < old) : biasClass old new = some .loosening := by
  unfold biasClass; rw [if_neg (by omega), if_pos h]

end Sys2Proof.Machine

namespace Sys2Proof.Proofs

open Sys2Proof Sys2Proof.Machine

/-- EXIT OVERRIDE, by whether the override changes the availability of its exit (R41). -/
theorem exitOverride_cases (tag index value : Byte) (s : State) (hr : Ready s) {e : ExitId} (hm : s.mode ≠ .setup)
    (named : index.toNat = e.val) (d : (look s.map.exits e).defined = true) {o : Override} (ho : overrideOf value = some o) :
    let u := setExitRt e { exitOf s e with override := o } s
    let v := setExitRt e { exitOf s e with override := o, available := availabilityOf u e } s
    (availabilityOf u e = (exitOf s e).available →
      Serves (.exitOverride tag index value) s .done [] [] fun t => { t with link := s.link } = u)
    ∧ (availabilityOf u e ≠ (exitOf s e).available →
      Serves (.exitOverride tag index value) s .done [] [exitNotice v e] fun t =>
        { t with link := s.link, engine := s.engine } = v
        ∧ TakesChange (if availabilityOf u e then .loosening else .tightening) s t) := by
  intro u v
  have hx := exec_exitOverride tag index value s
  have act := exitOverride_taken (s := begun s) (index := index) hm (definedExit_some named d) ho
  refine ⟨fun same => ?_, fun new => ?_⟩
  · have kept := reevalExit_same (s := begun s) (e := e) (r := { exitOf s e with override := o }) same
    exact serves_by rfl hx hr (act.trans (congrArg (taken .done) kept)) rfl rfl rfl fun _ => rfl
  · have moved := reevalExit_changes (s := begun s) (e := e) (r := { exitOf s e with override := o })
      (v := { v with link := (begun s).link }) d new rfl
    exact serves_by rfl hx hr (act.trans (congrArg (taken .done) moved)) rfl rfl rfl fun l => ⟨rfl,
      takesChange_of (w := { v with link := (begun s).link }) rfl rfl rfl rfl rfl⟩

theorem smoky_some (state : ZoneState) : smoky (some state) = true ↔ state = .smoke ∨ state = .clearing := by
  cases state <;> simp [smoky]

/-- Availability row by row (Table 2.3), an absent zone counting as CLEAR. -/
theorem availabilityOf_rows (s : State) (e : ExitId) :
    ((exitOf s e).override = .forcedOpen → availabilityOf s e = true)
    ∧ ((exitOf s e).override = .forcedClosed → availabilityOf s e = false)
    ∧ ((exitOf s e).override = .auto →
        availabilityOf s e = ((exitOf s e).contact != .broken && !smoky (exitZoneState s e))) := by
  unfold availabilityOf
  refine ⟨fun h => ?_, fun h => ?_, fun h => ?_⟩ <;> rw [h] <;> rfl

/-- Settles O34: EXIT OVERRIDE and EXIT BIAS check by check, and Table 2.3 row by row. -/
theorem exitRequests : Obligations.ExitRequests := by
  unfold Obligations.ExitRequests
  refine ⟨fun tag index value s hr => ?_, fun tag index value s hr => ?_, fun s e => ?_⟩
  · have hx := exec_exitOverride tag index value s
    intro request
    refine ⟨fun hm => refuses_by rfl hx hr (exitOverride_setup hm),
      fun hm none => refuses_by rfl hx hr (exitOverride_unnamed hm (definedExit_none none)), fun e hm named d =>
      ⟨fun bad => refuses_by rfl hx hr (exitOverride_badValue hm (definedExit_some named d) (overrideOf_none bad)),
        fun o ho => exitOverride_cases tag index value s hr hm named d ho⟩⟩
  · have hx := exec_exitBias tag index value s
    intro request
    refine ⟨fun hm => refuses_by rfl hx hr (exitBias_setup hm),
      fun hm none => refuses_by rfl hx hr (exitBias_unnamed hm (definedExit_none none)), fun e hm named d => ?_⟩
    intro b old
    have act := exitBias_taken (s := begun s) (value := value) hm (definedExit_some named d)
    obtain ⟨g, written, quiet, hands⟩ := writeBias_frame e b (begun s)
    rw [written] at act
    have taken_ {c : ChangeClass} (l : Link) (available : (exitOf s e).available = true) (class_ : biasClass old b = some c) :
        TakesChange c s { setExitRt e { exitOf s e with bias := b } s with engine := g, link := l } :=
      takesChange_of (w := setExitRt e { exitOf s e with bias := b } (begun s)) (hands c available class_) rfl rfl rfl rfl
    exact serves_by rfl hx hr act rfl (by simp [taken]) rfl fun l => ⟨rfl, quiet,
      fun available raised => taken_ l available (biasClass_raised raised),
      fun available lowered => taken_ l available (biasClass_lowered lowered)⟩
  · intro x p zone
    obtain ⟨opened, closed, auto⟩ := availabilityOf_rows s e
    have smoke : smoky (exitZoneState s e) = true ↔ zone = .smoke ∨ zone = .clearing := by
      simp only [zone, p, exitZoneState, exitZone]
      cases (look s.map.points (look s.map.exits e).point).defined
      · simp [smoky]
      · cases (look s.map.points (look s.map.exits e).point).zone with
        | none => simp [smoky]
        | some z => exact smoky_some (zoneOf s z).state
    refine ⟨opened, closed, fun o broken => ?_, fun o made smokes => ?_, fun o made clear => ?_⟩
    · rw [auto o, broken]; rfl
    · rw [auto o, smoke.mpr smokes, Bool.not_true, Bool.and_false]
    · have clean : smoky (exitZoneState s e) = false := Bool.eq_false_iff.mpr fun h => by
        rcases smoke.mp h with g | g <;> rw [g] at clear <;> simp at clear
      rw [auto o, clean, Bool.not_false, Bool.and_true]
      exact bne_iff_ne.mpr made

end Sys2Proof.Proofs
end

section
/-! ALARM by request and by the zone monitor, and STAND DOWN (R34, R151, R154, R155). -/

namespace Sys2Proof.Machine

theorem alarm_guard {s : State} (hm : s.mode = .guard) :
    alarm s = taken .done (recomputeAll (offer (.mode (some .guard) .alarm .alarm .none none) { s with mode := .alarm })) := by
  unfold alarm changeMode; rw [if_pos hm, hm]; rfl

theorem alarm_refused {s : State} (hm : s.mode ≠ .guard) : alarm s = refuse .wrongMode s := if_neg hm

theorem autoAlarm_none {s : State} (h : s.alarmRequests = []) : autoAlarm s = s := by unfold autoAlarm; rw [h]

theorem autoAlarm_ignored {s : State} {z : ZoneId} {rest : List ZoneId} (h : s.alarmRequests = z :: rest)
    (hm : s.mode ≠ .guard) : autoAlarm s = { s with alarmRequests := rest } := by
  unfold autoAlarm; rw [h]; exact if_neg hm

/-- The part as an automatic request brings it to ALARM (R154). -/
def autoAlarmed (z : ZoneId) (rest : List ZoneId) (s : State) : State :=
  offer (.mode (some .guard) .alarm .autoAlarm .none (some z)) { s with mode := .alarm, alarmRequests := rest }

theorem autoAlarm_guard {s : State} {z : ZoneId} {rest : List ZoneId} (h : s.alarmRequests = z :: rest)
    (hm : s.mode = .guard) : autoAlarm s = recomputeAll (autoAlarmed z rest s) := by
  unfold autoAlarm changeMode autoAlarmed; rw [h]; dsimp only; rw [if_pos hm, hm]; rfl

theorem firstIndex_isSome {n : Nat} {p : Fin n → Bool} : (firstIndex n p).isSome ↔ ∃ i, p i = true := by
  rw [Option.isSome_iff_ne_none, ne_eq, firstIndex_none]
  simp

theorem zoneActive_iff {s : State} {z : ZoneId} :
    zoneActive s z = true ↔
      (look s.map.zones z).defined = true ∧ ((zoneOf s z).state = .smoke ∨ (zoneOf s z).state = .clearing) := by
  unfold zoneActive; simp only [Bool.and_eq_true, Bool.or_eq_true, beq_iff_eq]

theorem standDown_refused {s : State} (hm : s.mode ≠ .alarm) : standDown s = refuse .wrongMode s := if_pos hm

theorem standDown_active {s : State} {z : ZoneId} (hm : s.mode = .alarm) (auto : s.timing.autoAlarm = true)
    (active : zoneActive s z = true) : standDown s = refuse .zonesActive s := by
  have found : (firstIndex 64 (zoneActive s)).isSome := firstIndex_isSome.mpr ⟨z, active⟩
  unfold standDown; rw [if_neg (not_not_intro hm), if_pos ⟨auto, found⟩]

/-- The part that STAND DOWN brings back to GUARD, before the zone monitor enters it (R151). -/
def stoodDown (s : State) : State :=
  offer (.mode (some .alarm) .guard .standDown .none none) { s with mode := .guard }

theorem standDown_taken {s : State} (hm : s.mode = .alarm) (quiet : s.timing.autoAlarm = true → ∀ z, zoneActive s z = false) :
    standDown s = taken .done (recomputeAll (enterGuard (stoodDown s))) := by
  have none_ : ¬ (s.timing.autoAlarm = true ∧ (firstIndex 64 (zoneActive s)).isSome) := fun ⟨auto, found⟩ => by
    obtain ⟨z, active⟩ := firstIndex_isSome.mp found
    rw [quiet auto z] at active; cases active
  unfold standDown changeMode stoodDown; rw [if_neg (not_not_intro hm), if_neg none_, hm]

end Sys2Proof.Machine

namespace Sys2Proof.Proofs

open Sys2Proof Sys2Proof.Machine

/-- Settles O16: the three changes between GUARD and ALARM, each by the mode and the zones it meets. -/
theorem alarmAndStandDown : Obligations.AlarmAndStandDown := by
  unfold Obligations.AlarmAndStandDown
  intro tag s
  refine ⟨fun hr => ⟨fun hm => ?_, fun hm => refuses_by rfl (exec_alarm tag s) hr (alarm_refused hm),
    fun hm => refuses_by rfl (exec_standDown tag s) hr (standDown_refused hm), fun hm auto ⟨z, active⟩ =>
    refuses_by rfl (exec_standDown tag s) hr (standDown_active (s := begun s) hm auto (zoneActive_iff.mpr active)),
    fun hm quiet => ?_⟩, fun none_ => (exec_autoAlarmRequest s).trans (congrArg _ (autoAlarm_none none_)),
    fun z rest asked => ⟨fun hm => (exec_autoAlarmRequest s).trans (congrArg _ (autoAlarm_ignored asked hm)), fun hm => ?_⟩⟩
  · refine serves_recomputed rfl (exec_alarm tag s) hr (alarm_guard (s := begun s) hm) rfl rfl rfl ?_
    rintro t ⟨d, q, l, rfl⟩ again
    exact ⟨rfl, again, rfl⟩
  · have inactive (auto : s.timing.autoAlarm = true) (z : ZoneId) : zoneActive s z = false :=
      Bool.eq_false_iff.mpr fun h => by
        obtain ⟨d, smoke | clearing⟩ := zoneActive_iff.mp h
        · exact (quiet auto z d).1 smoke
        · exact (quiet auto z d).2 clearing
    have act := standDown_taken (s := begun s) hm inactive
    rw [enterGuard_eq (s := stoodDown (begun s)) rfl] at act
    refine serves_recomputed rfl (exec_standDown tag s) hr act rfl rfl rfl ?_
    rintro t ⟨d, q, l, rfl⟩ again
    exact ⟨rfl, ⟨fun z => (look_tabulate _ z).trans rfl, rfl⟩, again, rfl⟩
  · obtain ⟨d, q, e⟩ := recomputeAll_frame (autoAlarmed z rest s)
    have again : Recomputed s (recomputeAll (autoAlarmed z rest s)) :=
      recomputed_from (u := autoAlarmed z rest s) rfl rfl (recomputeAll_recomputed _)
    refine ⟨_, (exec_autoAlarmRequest s).trans (congrArg _ (autoAlarm_guard asked hm)), ?_⟩
    generalize recomputeAll (autoAlarmed z rest s) = t at e again
    subst e
    exact ⟨rfl, rfl, again, rfl, rfl⟩

end Sys2Proof.Proofs
end

section
/-! The scan of the gate contacts: debounce, acceptance and deferral (R35 to R37). -/

namespace Sys2Proof.Machine

/-! ## The first of an ordered list -/

/-- Among the first `n` of a list in strict order stands what has fewer than `n` of the list before it. -/
theorem mem_take_iff_of_pairwise {α : Type} {R : α → α → Prop} (asymm : ∀ a b, R a b → ¬R b a) {L : List α}
    (sorted : L.Pairwise R) (n : Nat) (x : α) :
    x ∈ L.take n ↔ x ∈ L ∧ ∀ l : List α, l.Nodup → (∀ q ∈ l, q ∈ L ∧ R q x) → l.length < n := by
  have ne {a b : α} (h : R a b) : a ≠ b := fun e => asymm a b h (by subst e; exact h)
  refine ⟨fun h => ⟨List.mem_of_mem_take h, fun l nodup first => ?_⟩, fun ⟨h, few⟩ => ?_⟩
  · obtain ⟨pre, post, split⟩ := List.append_of_mem h
    have whole : L = pre ++ x :: (post ++ L.drop n) := by
      rw [← List.cons_append, ← List.append_assoc, ← split, List.take_append_drop]
    have short : pre.length < n := by
      have := congrArg List.length split
      simp only [List.length_take, List.length_append, List.length_cons] at this
      omega
    have inside : l ⊆ pre := fun q hq => by
      obtain ⟨mem, rel⟩ := first q hq
      rw [whole] at mem sorted
      rcases List.mem_append.mp mem with h | h
      · exact h
      · rcases List.mem_cons.mp h with rfl | h
        · exact absurd rfl (ne rel)
        · obtain ⟨-, tail, -⟩ := List.pairwise_append.mp sorted
          exact absurd rel (asymm x q ((List.pairwise_cons.mp tail).1 q h))
    exact (nodup.subperm inside).length_le.trans_lt short
  · obtain ⟨pre, post, rfl⟩ := List.append_of_mem h
    obtain ⟨front, -, rel⟩ := List.pairwise_append.mp sorted
    have short := few pre (front.imp ne) fun q hq =>
      ⟨List.mem_append_left _ hq, rel q hq x List.mem_cons_self⟩
    refine List.mem_take_iff_getElem.mpr ⟨pre.length, ?_, ?_⟩
    · simp [short]
    · simp

/-! ## Candidates and their order -/

/-- The order of acceptance of R37: deferred positions first, each part in row-major order. -/
def acceptedBefore (v : Vector Contact 32) (q p : PositionId) : Prop :=
  ((look v q).deferred = true ∧ (look v p).deferred = false) ∨ ((look v q).deferred = (look v p).deferred ∧ q < p)

theorem acceptedBefore_asymm (v : Vector Contact 32) (q p : PositionId) : acceptedBefore v q p → ¬acceptedBefore v p q := by
  rintro (⟨a, b⟩ | ⟨a, b⟩) (⟨c, d⟩ | ⟨c, d⟩)
  · rw [a] at d; cases d
  · rw [a, b] at c; cases c
  · rw [c, d] at a; cases a
  · exact absurd d b.asymm

theorem mem_candidates {v : Vector Contact 32} {p : PositionId} : p ∈ candidates v ↔ isCandidate (look v p) = true := by
  unfold candidates
  cases d : (look v p).deferred <;> simp [d]

theorem candidates_pairwise (v : Vector Contact 32) : (candidates v).Pairwise (acceptedBefore v) := by
  have rows := List.pairwise_lt_finRange 32
  refine List.pairwise_append.mpr ⟨?_, ?_, fun q hq p hp => ?_⟩
  · refine List.Pairwise.imp_of_mem ?_ (rows.filter _)
    intro q p hq hp lt
    simp only [List.mem_filter, Bool.and_eq_true] at hq hp
    exact .inr ⟨hq.2.2.trans hp.2.2.symm, lt⟩
  · refine List.Pairwise.imp_of_mem ?_ (rows.filter _)
    intro q p hq hp lt
    simp only [List.mem_filter, Bool.and_eq_true, Bool.not_eq_true'] at hq hp
    exact .inr ⟨hq.2.2.trans hp.2.2.symm, lt⟩
  · simp only [List.mem_filter, Bool.and_eq_true, Bool.not_eq_true'] at hq hp
    exact .inl ⟨hq.2.2, hp.2.2⟩

/-- The first 4 candidates are accepted (R37). -/
theorem mem_acceptedOf {v : Vector Contact 32} {p : PositionId} :
    p ∈ acceptedOf v ↔ isCandidate (look v p) = true ∧
      ∀ l : List PositionId, l.Nodup → (∀ q ∈ l, isCandidate (look v q) = true ∧ acceptedBefore v q p) → l.length < 4 := by
  have first := mem_take_iff_of_pairwise (acceptedBefore_asymm v) (candidates_pairwise v) 4 p
  simp only [mem_candidates] at first
  exact first

/-! ## One position (R36, R37) -/

section Position
variable {level : Bool} {c : Contact}

theorem runOn_level : (runOn level c).level = some level := by
  unfold runOn; split
  · assumption
  · rfl

theorem isCandidate_of_level (h : c.level = some level) :
    isCandidate c = true ↔ c.count = 5 ∧ c.state ≠ levelState level := by
  unfold isCandidate; rw [h]
  simp only [Bool.and_eq_true, beq_iff_eq, bne_iff_ne]; rfl

theorem acceptContact_of_level (h : c.level = some level) :
    acceptContact c = { c with state := levelState level, deferred := false } := by
  unfold acceptContact; rw [h]

end Position

theorem look_scanRuns (levels : BitVec 32) (v : Vector Contact 32) (p : PositionId) :
    look (scanRuns levels v) p = runOn (levels.getLsbD p.val) (look v p) := look_tabulate ..

theorem look_settleScan (v : Vector Contact 32) (p : PositionId) :
    look (settleScan v) p =
      if p ∈ acceptedOf v then acceptContact (look v p)
      else if isCandidate (look v p) then { look v p with deferred := true } else look v p := look_tabulate ..

end Sys2Proof.Machine

namespace Sys2Proof.Proofs

open Sys2Proof Sys2Proof.Machine

/-- Settles O32: the scanner after a scan, position by position. -/
theorem gateScanPositions : Obligations.GateScanPositions := by
  unfold Obligations.GateScanPositions
  intro levels s run reads candidate before accepted
  have look_run (p : PositionId) : look (scanRuns levels s.scanner) p = run p := look_scanRuns ..
  have levelled (p : PositionId) : (run p).level = some (levels.getLsbD p.val) := runOn_level
  have read (p : PositionId) : levelState (levels.getLsbD p.val) = reads p := by
    simp only [reads]; cases levels.getLsbD p.val <;> rfl
  have candidate_iff (p : PositionId) : isCandidate (look (scanRuns levels s.scanner) p) = true ↔ candidate p := by
    rw [look_run, isCandidate_of_level (levelled p), read]
  have accepted_iff (p : PositionId) : p ∈ acceptedOf (scanRuns levels s.scanner) ↔ accepted p := by
    simp only [mem_acceptedOf, candidate_iff]
    unfold acceptedBefore
    simp only [look_run]; rfl
  obtain ⟨x, g, l, frame⟩ := gateScan_frame levels s
  refine ⟨_, (exec_gateScan levels s).trans (congrArg _ frame), fun p => ⟨fun taken => ?_, fun held waits => ?_,
    fun rests => ?_⟩, rfl⟩ <;> refine (look_settleScan _ p).trans ?_
  · rw [if_pos ((accepted_iff p).mpr taken), look_run, acceptContact_of_level (levelled p), read]
  · rw [if_neg fun h => waits ((accepted_iff p).mp h), if_pos ((candidate_iff p).mpr held), look_run]
  · have none_ : ¬accepted p := fun h => rests h.1
    rw [if_neg fun h => none_ ((accepted_iff p).mp h), if_neg fun h => rests ((candidate_iff p).mp h), look_run]

end Sys2Proof.Proofs
end

section
/-! Contact states taken by exits one after another (R38 to R40, R43). -/

namespace Sys2Proof.Machine

/-- The runtime fields of an exit with a contact state written, before it is re-evaluated (R38). -/
def contactWritten (c : ExitId → ContactState) (s : State) (e : ExitId) : ExitRt :=
  { exitOf s e with contact := contactOf (c e), copyDue := false }

/-- The runtime fields of an exit that has taken a contact state and is re-evaluated (R38 to R40). -/
def contactTaken (c : ExitId → ContactState) (s : State) (e : ExitId) : ExitRt :=
  { contactWritten c s e with
    available := availability (exitOf s e).override (contactOf (c e)) (exitZoneState s e) }

/-- The exits after those of a list have taken their contact states. -/
def exitsTaken (c : ExitId → ContactState) (L : List ExitId) (s : State) : Vector ExitRt 24 :=
  tabulate 24 fun k => if k ∈ L then contactTaken c s k else exitOf s k

/-- A contact state changes the availability of its exit. -/
def movesExit (c : ExitId → ContactState) (s : State) (e : ExitId) : Bool :=
  (contactTaken c s e).available != (exitOf s e).available

/-- The EXIT notice of an exit whose availability a contact state changes (R43). -/
def noticeTaken (c : ExitId → ContactState) (s : State) (e : ExitId) : Notice :=
  .exit e (contactTaken c s e).available (exitOf s e).override (contactOf (c e)) (exitZoneState s e)

/-- What an exit of a list in ascending turn hands to the engine, with the exits as they stand at its turn. -/
def handTaken (turn : ExitId → Nat) (c : ExitId → ContactState) (L : List ExitId) (s : State) (e : ExitId) :
    ChangeClass × State :=
  (availabilityClass (contactTaken c s e).available,
    { s with exits := exitsTaken c (L.filter fun k => turn k ≤ turn e) s })

/-- The part after the exits of a list in ascending turn have taken their contact states. -/
def contactsTaken (turn : ExitId → Nat) (c : ExitId → ContactState) (L : List ExitId) (s : State) : State :=
  { s with
    exits := exitsTaken c L s
    engine := engineTakes ((L.filter (movesExit c s)).map (handTaken turn c L s)) s.engine
    link := offerAll ((L.filter (movesExit c s)).map (noticeTaken c s)) s.link }

section Taken
variable {turn : ExitId → Nat} {c : ExitId → ContactState} {L : List ExitId} {s : State} {e : ExitId}

theorem look_exitsTaken (k : ExitId) :
    look (exitsTaken c L s) k = if k ∈ L then contactTaken c s k else exitOf s k := look_tabulate ..

theorem exitsTaken_nil : exitsTaken c [] s = s.exits :=
  table_ext fun k => (look_exitsTaken k).trans (if_neg (List.not_mem_nil))

theorem exitsTaken_snoc : exitsTaken c (L ++ [e]) s = store (exitsTaken c L s) e (contactTaken c s e) := by
  refine table_ext fun k => ?_
  rw [look_store, look_exitsTaken, look_exitsTaken]
  by_cases h : e = k
  · subst h; simp
  · have ne : ¬k = e := fun h' => h h'.symm
    simp [h, ne]

theorem engineTakes_append (a b : List (ChangeClass × State)) (g : Engine) :
    engineTakes (a ++ b) g = engineTakes b (engineTakes a g) := List.foldl_append

/-- An exit of a later turn changes nothing of what the exits before it hand over. -/
theorem map_handTaken_snoc (later : ∀ a ∈ L, turn a < turn e) :
    (L.filter (movesExit c s)).map (handTaken turn c (L ++ [e]) s)
      = (L.filter (movesExit c s)).map (handTaken turn c L s) := by
  refine List.map_congr_left fun a ha => ?_
  have lt := later a (List.mem_of_mem_filter ha)
  unfold handTaken
  rw [List.filter_append, List.filter_singleton]
  simp [Nat.not_le.mpr lt]

/-- The last exit in turn hands its change over with every exit of the list as it then stands. -/
theorem handTaken_last (later : ∀ a ∈ L, turn a < turn e) :
    handTaken turn c (L ++ [e]) s e
      = (availabilityClass (contactTaken c s e).available, { s with exits := exitsTaken c (L ++ [e]) s }) := by
  have whole : (L ++ [e]).filter (fun k => turn k ≤ turn e) = L ++ [e] := by
    refine List.filter_eq_self.mpr fun k hk => decide_eq_true ?_
    rcases List.mem_append.mp hk with h | h
    · exact (later k h).le
    · rw [List.mem_singleton.mp h]
  unfold handTaken; rw [whole]

theorem availabilityOf_contactWritten (u : State) (zone : exitZoneState u e = exitZoneState s e) :
    availabilityOf (setExitRt e (contactWritten c s e) u) e = (contactTaken c s e).available := by
  have zone' : exitZoneState (setExitRt e (contactWritten c s e) u) e = exitZoneState s e := zone
  unfold availabilityOf
  rw [exitOf_setExitRt_same, zone']; rfl

/-- An exit whose availability stays takes its contact state in turn. -/
theorem reevalExit_contactWritten_same (later : ∀ a ∈ L, turn a < turn e) (moves : movesExit c s e = false) :
    reevalExit true e (setExitRt e (contactWritten c s e) (contactsTaken turn c L s)) = contactsTaken turn c (L ++ [e]) s := by
  have same := bne_eq_false_iff_eq.mp moves
  have filtered : (L ++ [e]).filter (movesExit c s) = L.filter (movesExit c s) := by simp [moves]
  have record : contactTaken c s e = contactWritten c s e :=
    congrArg (fun a => { contactWritten c s e with available := a }) same
  have gives := availabilityOf_contactWritten (c := c) (s := s) (e := e) (contactsTaken turn c L s) rfl
  rw [reevalExit_same (gives.trans same)]
  unfold contactsTaken
  rw [filtered, map_handTaken_snoc later, exitsTaken_snoc, record]; rfl

/-- An exit whose availability changes takes its contact state in turn, with its notice and its change. -/
theorem reevalExit_contactWritten_moves (d : (look s.map.exits e).defined = true) (later : ∀ a ∈ L, turn a < turn e)
    (moves : movesExit c s e = true) :
    reevalExit true e (setExitRt e (contactWritten c s e) (contactsTaken turn c L s)) = contactsTaken turn c (L ++ [e]) s := by
  have filtered : (L ++ [e]).filter (movesExit c s) = L.filter (movesExit c s) ++ [e] := by simp [moves]
  have gives := availabilityOf_contactWritten (c := c) (s := s) (e := e) (contactsTaken turn c L s) rfl
  have stand : setExitRt e (contactTaken c s e) (contactsTaken turn c L s)
      = { s with
          exits := exitsTaken c (L ++ [e]) s
          engine := (contactsTaken turn c L s).engine
          link := (contactsTaken turn c L s).link } := by
    rw [exitsTaken_snoc]; rfl
  have notice : exitNotice (setExitRt e (contactTaken c s e) (contactsTaken turn c L s)) e = noticeTaken c s e := by
    unfold exitNotice; rw [exitOf_setExitRt_same]; rfl
  have engine : (handChange (availabilityClass (contactTaken c s e).available)
        (setExitRt e (contactTaken c s e) (contactsTaken turn c L s))).engine
      = engineTakes [handTaken turn c (L ++ [e]) s e] (contactsTaken turn c L s).engine := by
    rw [stand, handTaken_last later]
    exact handChange_link _ { s with exits := exitsTaken c (L ++ [e]) s, engine := (contactsTaken turn c L s).engine } _
  rw [reevalExit_changes (s := contactsTaken turn c L s)
    (v := setExitRt e (contactTaken c s e) (contactsTaken turn c L s)) d (by rw [gives]; exact bne_iff_ne.mp moves)
    (by rw [gives]; rfl), gives, notice, engine, stand]
  unfold contactsTaken
  rw [filtered, List.map_append, List.map_append, offerAll_append, engineTakes_append, map_handTaken_snoc later]; rfl

/-- An exit takes its contact state where the exits of `L` have taken theirs. -/
theorem takeContact_contactsTaken (d : (look s.map.exits e).defined = true) (later : ∀ a ∈ L, turn a < turn e) :
    takeContact e (c e) (contactsTaken turn c L s) = contactsTaken turn c (L ++ [e]) s := by
  have fresh : e ∉ L := fun h => (later e h).ne rfl
  have kept : exitOf (contactsTaken turn c L s) e = exitOf s e := (look_exitsTaken e).trans (if_neg fresh)
  have act : takeContact e (c e) (contactsTaken turn c L s)
      = reevalExit true e (setExitRt e (contactWritten c s e) (contactsTaken turn c L s)) := by
    unfold takeContact; rw [kept]; rfl
  rw [act]
  cases moves : movesExit c s e with
  | true => exact reevalExit_contactWritten_moves d later moves
  | false => exact reevalExit_contactWritten_same later moves

/-- Exits in ascending turn take their contact states one after another. -/
theorem foldl_takeContact (defined : ∀ e ∈ L, (look s.map.exits e).defined = true)
    (sorted : L.Pairwise fun a b => turn a < turn b) :
    L.foldl (fun u e => takeContact e (c e) u) s = contactsTaken turn c L s := by
  induction L using List.reverseRecOn with
  | nil => unfold contactsTaken; rw [exitsTaken_nil]; rfl
  | append_singleton L e ih =>
    obtain ⟨front, -, later⟩ := List.pairwise_append.mp sorted
    have before (a : ExitId) (ha : a ∈ L) : turn a < turn e := later a ha e (List.mem_singleton_self e)
    rw [List.foldl_append, ih (fun a ha => defined a (List.mem_append_left _ ha)) front]
    exact takeContact_contactsTaken (defined e (by simp)) before

theorem exitOf_contactsTaken (k : ExitId) :
    exitOf (contactsTaken turn c L s) k = if k ∈ L then contactTaken c s k else exitOf s k := look_exitsTaken k

theorem exitOf_contactsTaken_mem (h : e ∈ L) : exitOf (contactsTaken turn c L s) e = contactTaken c s e :=
  (exitOf_contactsTaken e).trans (if_pos h)

theorem bias_contactsTaken (k : ExitId) : (exitOf (contactsTaken turn c L s) k).bias = (exitOf s k).bias := by
  rw [exitOf_contactsTaken]; split <;> rfl

theorem availabilityOf_contactsTaken (h : e ∈ L) :
    availabilityOf (contactsTaken turn c L s) e = (contactTaken c s e).available := by
  unfold availabilityOf; rw [exitOf_contactsTaken_mem h]; rfl

theorem exitNotice_contactsTaken (h : e ∈ L) : exitNotice (contactsTaken turn c L s) e = noticeTaken c s e := by
  unfold exitNotice; rw [exitOf_contactsTaken_mem h]; rfl

/-- The exits that change their availability. -/
theorem mem_movers :
    e ∈ L.filter (movesExit c s) ↔ (exitOf (contactsTaken turn c L s) e).available ≠ (exitOf s e).available := by
  rw [List.mem_filter, exitOf_contactsTaken]
  unfold movesExit
  by_cases mem : e ∈ L <;> simp [mem]

end Taken

end Sys2Proof.Machine
end

section
/-! What a gate scan brings to the exits (R37 to R40, R43, R44). -/

namespace Sys2Proof.Machine

/-! ## The exits that a scan reaches -/

/-- The contact state that the scanner holds for an exit. -/
def contactHeld (v : Vector Contact 32) (s : State) (e : ExitId) : ContactState :=
  match (look s.map.exits e).contact with
  | some pos => (look v pos.number).state
  | none => .unknown

/-- The exit follows a change of position p: its first copy has been made (R38, R39). -/
def followsPosition (s : State) (p : PositionId) (e : ExitId) : Bool := hasContact s e p && !(exitOf s e).copyDue

/-- The first copy of a defined exit's contact position is due (R39). -/
def firstCopyDue (s : State) (e : ExitId) : Bool :=
  (look s.map.exits e).defined && (exitOf s e).copyDue && (look s.map.exits e).contact.isSome

/-- The exits that take a contact state in a scan whose runs are `v`, in the order in which they take it: the accepted
positions in turn, then the first copies. -/
def takers (v : Vector Contact 32) (s : State) : List ExitId :=
  ((acceptedOf v).flatMap fun p => (List.finRange 24).filter (followsPosition s p))
    ++ (List.finRange 24).filter (firstCopyDue s)

section Reached
variable {s : State} {e : ExitId}

theorem hasContact_iff {p : PositionId} : hasContact s e p = true ↔
    (look s.map.exits e).defined = true ∧ ∃ pos, (look s.map.exits e).contact = some pos ∧ pos.number = p := by
  unfold hasContact
  rw [Bool.and_eq_true, beq_iff_eq, Option.map_eq_some_iff]

theorem followsPosition_iff {p : PositionId} :
    followsPosition s p e = true ↔ hasContact s e p = true ∧ (exitOf s e).copyDue = false := by
  unfold followsPosition; rw [Bool.and_eq_true, Bool.not_eq_true']

theorem firstCopyDue_iff : firstCopyDue s e = true ↔
    (look s.map.exits e).defined = true ∧ (exitOf s e).copyDue = true ∧ ∃ pos, (look s.map.exits e).contact = some pos := by
  unfold firstCopyDue; rw [Bool.and_eq_true, Bool.and_eq_true, Option.isSome_iff_exists, and_assoc]

theorem mem_takers {v : Vector Contact 32} :
    e ∈ takers v s ↔ (∃ p ∈ acceptedOf v, followsPosition s p e = true) ∨ firstCopyDue s e = true := by
  simp [takers]

theorem takers_defined {v : Vector Contact 32} (h : e ∈ takers v s) : (look s.map.exits e).defined = true := by
  rcases mem_takers.mp h with ⟨p, -, follows⟩ | due
  · exact (hasContact_iff.mp (followsPosition_iff.mp follows).1).1
  · exact (firstCopyDue_iff.mp due).1

theorem takers_contact {v : Vector Contact 32} (h : e ∈ takers v s) : ∃ pos, (look s.map.exits e).contact = some pos := by
  rcases mem_takers.mp h with ⟨p, -, follows⟩ | due
  · obtain ⟨-, pos, names, -⟩ := hasContact_iff.mp (followsPosition_iff.mp follows).1
    exact ⟨pos, names⟩
  · exact (firstCopyDue_iff.mp due).2.2

/-- A defined exit with a contact position takes a contact state where its first copy is due or its position is
accepted. -/
theorem mem_takers_of_contact {v : Vector Contact 32} {pos : Position} (d : (look s.map.exits e).defined = true)
    (names : (look s.map.exits e).contact = some pos) :
    e ∈ takers v s ↔ (exitOf s e).copyDue = true ∨ pos.number ∈ acceptedOf v := by
  have position (p : PositionId) : hasContact s e p = true ↔ pos.number = p := by
    simp [hasContact_iff, d, names]
  cases due : (exitOf s e).copyDue <;> simp [mem_takers, followsPosition_iff, firstCopyDue_iff, position, d, names, due]

end Reached

/-! ## The scan as one pass over them -/

theorem copyDue_takeContact (e k : ExitId) (c : ContactState) (s : State) :
    (exitOf (takeContact e c s) k).copyDue = if e = k then false else (exitOf s k).copyDue := by
  have written : (exitOf (setExitRt e { exitOf s e with contact := contactOf c, copyDue := false } s) k).copyDue
      = if e = k then false else (exitOf s k).copyDue := by
    unfold setExitRt exitOf; rw [look_store]; split <;> rfl
  unfold takeContact
  rw [reevalExit_eq, ← written]
  split
  · unfold setExitRt exitOf
    dsimp only
    rw [look_store]
    split
    · next h => subst h; rfl
    · rfl
  · rfl

/-- The part `u`, within a scan that began in `s`: the scanner is settled, and the exits of a list await their turn. -/
structure InScan (v : Vector Contact 32) (s : State) (L : List ExitId) (u : State) : Prop where
  map : u.map = s.map
  scanner : u.scanner = v
  due : ∀ e ∈ L, (exitOf u e).copyDue = (exitOf s e).copyDue

section Pass
variable {v : Vector Contact 32} {s u : State} {L : List ExitId}

theorem InScan.takeContact (h : InScan v s L u) {e : ExitId} (own : e ∈ L → (exitOf s e).copyDue = false)
    (c : ContactState) : InScan v s L (takeContact e c u) := by
  obtain ⟨x, g, l, frame⟩ := takeContact_frame e c u
  refine ⟨by rw [frame]; exact h.map, by rw [frame]; exact h.scanner, fun k mem => ?_⟩
  rw [copyDue_takeContact]
  split
  · next same => subst same; exact (own mem).symm
  · exact h.due k mem

theorem copyContact_eq (h : InScan v s L u) {e : ExitId} (mem : e ∈ L) :
    copyContact e u = if firstCopyDue s e then takeContact e (contactHeld v s e) u else u := by
  unfold copyContact firstCopyDue contactHeld
  rw [h.map, h.scanner, h.due e mem]
  cases (look s.map.exits e).contact <;> simp

theorem foldl_copyContact (nodup : L.Nodup) (h : InScan v s L u) :
    L.foldl (fun u e => copyContact e u) u
      = (L.filter (firstCopyDue s)).foldl (fun u e => takeContact e (contactHeld v s e) u) u := by
  induction L generalizing u with
  | nil => rfl
  | cons e L ih =>
    obtain ⟨fresh, rest⟩ := List.nodup_cons.mp nodup
    have tail : InScan v s L u := ⟨h.map, h.scanner, fun k mem => h.due k (List.mem_cons_of_mem _ mem)⟩
    rw [List.foldl_cons, copyContact_eq h List.mem_cons_self]
    by_cases due : firstCopyDue s e = true
    · rw [if_pos due, List.filter_cons_of_pos due, List.foldl_cons]
      exact ih rest (tail.takeContact (fun mem => absurd mem fresh) _)
    · rw [if_neg due, List.filter_cons_of_neg due]
      exact ih rest tail

/-- One exit of an accepted position takes its state where it follows the position. -/
theorem handContact_step (h : InScan v s (List.finRange 24) u) (p : PositionId) (e : ExitId) :
    (if hasContact u e p && !(exitOf u e).copyDue then takeContact e (look u.scanner p).state u else u)
      = if followsPosition s p e then takeContact e (contactHeld v s e) u else u := by
  have follows : (hasContact u e p && !(exitOf u e).copyDue) = followsPosition s p e := by
    unfold followsPosition hasContact
    rw [h.map, h.due e (List.mem_finRange e)]
  rw [follows]
  split
  · next f =>
    obtain ⟨-, pos, names, number⟩ := hasContact_iff.mp (followsPosition_iff.mp f).1
    have held : contactHeld v s e = (look u.scanner p).state := by
      unfold contactHeld; rw [names, h.scanner, ← number]
    rw [held]
  · rfl

theorem InScan.handContact_step (h : InScan v s (List.finRange 24) u) (p : PositionId) (e : ExitId) :
    InScan v s (List.finRange 24) (if followsPosition s p e then Machine.takeContact e (contactHeld v s e) u else u) := by
  split
  · next f => exact h.takeContact (fun _ => (followsPosition_iff.mp f).2) _
  · exact h

theorem handContact_eq (h : InScan v s (List.finRange 24) u) (p : PositionId) :
    handContact p u
      = ((List.finRange 24).filter (followsPosition s p)).foldl (fun u e => takeContact e (contactHeld v s e) u) u := by
  rw [List.foldl_filter]
  exact foldl_congr_inv (InScan v s (List.finRange 24)) _ _ _ u h (fun u e k => k.handContact_step p e)
    fun u e k => handContact_step k p e

theorem InScan.handContact (h : InScan v s (List.finRange 24) u) (p : PositionId) :
    InScan v s (List.finRange 24) (handContact p u) := by
  rw [handContact_eq h, List.foldl_filter]
  exact foldl_induct _ _ _ h fun u e k => k.handContact_step p e

end Pass

/-- A scan as one pass over the exits that take a contact state. -/
theorem gateScan_eq (levels : BitVec 32) (s : State) :
    gateScan levels s
      = (takers (scanRuns levels s.scanner) s).foldl
          (fun u e => takeContact e (contactHeld (settleScan (scanRuns levels s.scanner)) s e) u)
          { s with scanner := settleScan (scanRuns levels s.scanner) } := by
  have start : InScan (settleScan (scanRuns levels s.scanner)) s (List.finRange 24)
      { s with scanner := settleScan (scanRuns levels s.scanner) } := ⟨rfl, rfl, fun _ _ => rfl⟩
  have changed := foldl_induct (fun u p => handContact p u) (acceptedOf (scanRuns levels s.scanner)) _ start
    fun u p k => k.handContact p
  have positions := foldl_congr_inv _ (fun u p => handContact p u)
    (fun u p => ((List.finRange 24).filter (followsPosition s p)).foldl
      (fun u e => takeContact e (contactHeld (settleScan (scanRuns levels s.scanner)) s e) u) u)
    (acceptedOf (scanRuns levels s.scanner)) _ start (fun u p k => handContact_eq k p ▸ k.handContact p)
    fun u p k => handContact_eq k p
  unfold gateScan takers
  rw [List.foldl_append, List.foldl_flatMap, ← positions]
  exact foldl_copyContact (List.nodup_finRange 24) changed

end Sys2Proof.Machine
end

section
/-! The order of a gate scan's changes, and their hand-over to the engine (R37, R39, R44). -/

namespace Sys2Proof.Machine

/-! ## Turns -/

/-- The turn of an exit in a scan: with its position, deferred positions first, or with the first copies after them all
(R37, R39). -/
def turnOf (s : State) (e : ExitId) : Nat :=
  match (exitOf s e).copyDue, (look s.map.exits e).contact with
  | false, some p => (if (look s.scanner p.number).deferred then 0 else 2000) + 32 * p.number.val + e.val
  | _, _ => 4000 + e.val

section Turns
variable {s : State} {e : ExitId} {p q : PositionId} {levels : BitVec 32}

theorem turnOf_follower (h : followsPosition s p e = true) :
    turnOf s e = (if (look s.scanner p).deferred then 0 else 2000) + 32 * p.val + e.val := by
  obtain ⟨contact, copied⟩ := followsPosition_iff.mp h
  obtain ⟨-, pos, names, rfl⟩ := hasContact_iff.mp contact
  unfold turnOf; rw [copied, names]

theorem turnOf_copy (h : firstCopyDue s e = true) : turnOf s e = 4000 + e.val := by
  obtain ⟨-, due, -⟩ := firstCopyDue_iff.mp h
  unfold turnOf; rw [due]

/-- A candidate's deferred mark is that of the scan before: a new run clears it, and is no candidate (R36). -/
theorem deferred_of_candidate {level : Bool} {c : Contact} (h : isCandidate (runOn level c) = true) :
    (runOn level c).deferred = c.deferred := by
  have count := ((isCandidate_of_level runOn_level).mp h).1
  unfold runOn at count ⊢
  split
  · rfl
  · next fresh => rw [if_neg fresh] at count; cases count

theorem acceptedOf_pairwise (v : Vector Contact 32) : (acceptedOf v).Pairwise (acceptedBefore v) :=
  (candidates_pairwise v).sublist (List.take_sublist ..)

theorem turn_lt_of_acceptedBefore {a b : ExitId} (hq : q ∈ acceptedOf (scanRuns levels s.scanner))
    (hp : p ∈ acceptedOf (scanRuns levels s.scanner)) (h : acceptedBefore (scanRuns levels s.scanner) q p)
    (ha : followsPosition s q a = true) (hb : followsPosition s p b = true) : turnOf s a < turnOf s b := by
  have mark {p : PositionId} (h : p ∈ acceptedOf (scanRuns levels s.scanner)) :
      (look (scanRuns levels s.scanner) p).deferred = (look s.scanner p).deferred := by
    have candidate := (mem_acceptedOf.mp h).1
    rw [look_scanRuns] at candidate ⊢
    exact deferred_of_candidate candidate
  unfold acceptedBefore at h
  rw [mark hq, mark hp] at h
  rw [turnOf_follower ha, turnOf_follower hb]
  rcases h with ⟨first, second⟩ | ⟨same, lt⟩
  · rw [if_pos first, second, if_neg Bool.false_ne_true]; omega
  · have rows : q.val < p.val := lt
    rw [same]; omega

theorem takers_pairwise (levels : BitVec 32) (s : State) :
    (takers (scanRuns levels s.scanner) s).Pairwise fun a b => turnOf s a < turnOf s b := by
  have indices := List.pairwise_lt_finRange 24
  refine List.pairwise_append.mpr ⟨List.pairwise_flatMap.mpr ⟨fun p _ => ?_, ?_⟩, ?_, fun a ha b hb => ?_⟩
  · refine (indices.filter _).imp_of_mem fun ha hb lt => ?_
    rw [turnOf_follower (List.mem_filter.mp ha).2, turnOf_follower (List.mem_filter.mp hb).2]; omega
  · refine (acceptedOf_pairwise _).imp_of_mem fun hq hp before a ha b hb => ?_
    exact turn_lt_of_acceptedBefore hq hp before (List.mem_filter.mp ha).2 (List.mem_filter.mp hb).2
  · refine (indices.filter _).imp_of_mem fun ha hb lt => ?_
    rw [turnOf_copy (List.mem_filter.mp ha).2, turnOf_copy (List.mem_filter.mp hb).2]; omega
  · obtain ⟨p, -, follows⟩ := List.mem_flatMap.mp ha
    rw [turnOf_follower (List.mem_filter.mp follows).2, turnOf_copy (List.mem_filter.mp hb).2]
    split <;> omega

/-- A position's contact state changes in a scan where it is accepted (R37). -/
theorem state_settleScan_ne_iff :
    (look (settleScan (scanRuns levels s.scanner)) p).state ≠ (look s.scanner p).state
      ↔ p ∈ acceptedOf (scanRuns levels s.scanner) := by
  have kept : (look (scanRuns levels s.scanner) p).state = (look s.scanner p).state := by
    rw [look_scanRuns]; unfold runOn; split <;> rfl
  have level : (look (scanRuns levels s.scanner) p).level = some (levels.getLsbD p.val) := by
    rw [look_scanRuns]; exact runOn_level
  rw [look_settleScan, ← kept]
  by_cases accepted : p ∈ acceptedOf (scanRuns levels s.scanner)
  · have differs := ((isCandidate_of_level level).mp (mem_acceptedOf.mp accepted).1).2
    rw [if_pos accepted, acceptContact_of_level level]
    exact ⟨fun _ => accepted, fun _ => differs.symm⟩
  · rw [if_neg accepted]
    refine ⟨fun ne => absurd ?_ ne, fun h => absurd h accepted⟩
    split <;> rfl

end Turns

/-! ## What the engine takes -/

theorem handChange_scanner (c : ChangeClass) (s : State) (v : Vector Contact 32) :
    (handChange c { s with scanner := v }).engine = (handChange c s).engine := by
  have routes : routing { s with scanner := v } = routing s := rfl
  unfold handChange
  rw [routes]
  split
  · dsimp only; split <;> rfl
  · rfl

/-- The engine does not read the scanner. -/
theorem engineTakes_scanner (cs : List (ChangeClass × State)) (v : Vector Contact 32) (g : Engine) :
    engineTakes (cs.map fun c => (c.1, { c.2 with scanner := v })) g = engineTakes cs g := by
  unfold engineTakes
  rw [List.foldl_map]
  exact List.foldl_ext _ _ _ fun g' c _ => handChange_scanner c.1 { c.2 with engine := g' } v

/-- Changes handed over leave the published table and its digest (R48, R64). -/
theorem engineTakes_table (cs : List (ChangeClass × State)) (g : Engine) :
    (engineTakes cs g).table = g.table ∧ (engineTakes cs g).digest = g.digest := by
  refine foldl_induct (P := fun h => h.table = g.table ∧ h.digest = g.digest) _ cs g ⟨rfl, rfl⟩
    fun h c ⟨table, digest⟩ => ?_
  obtain ⟨tableKept, digestKept⟩ := handChange_table c.1 { c.2 with engine := h }
  exact ⟨tableKept.trans table, digestKept.trans digest⟩

/-- A snapshot takes of the exits their availability and their bias (R49). -/
theorem takeSnapshot_sources {s t : State} (map : t.map = s.map) (zones : t.zones = s.zones) (timing : t.timing = s.timing)
    (available : ∀ e, (exitOf t e).available = (exitOf s e).available) (bias : ∀ e, (exitOf t e).bias = (exitOf s e).bias) :
    takeSnapshot t = takeSnapshot s := by
  have aisles : snapAisle t = snapAisle s := by
    funext x; unfold snapAisle hazardOf zoneOf; simp only [map, zones]
  have sources : sourcePair t = sourcePair s := by
    funext e; unfold sourcePair; rw [map, available, bias]
  unfold takeSnapshot; rw [aisles, sources, timing]

/-- What an exit hands to the engine in a change from `s` to `t`, with the exits of the turns up to its own as `t` has
them. -/
def handAtTurn (turn : ExitId → Nat) (s t : State) (e : ExitId) : ChangeClass × State :=
  (if (exitOf t e).available then .loosening else .tightening,
    { s with exits := tabulate 24 fun k => if turn k ≤ turn e then exitOf t k else exitOf s k })

section Engine
variable {turn : ExitId → Nat} {c : ExitId → ContactState} {L : List ExitId} {s : State} {v : Vector Contact 32}

theorem handTaken_eq {e : ExitId} (h : e ∈ L) :
    handTaken turn c L { s with scanner := v } e
      = ((handAtTurn turn s (contactsTaken turn c L { s with scanner := v }) e).1,
        { (handAtTurn turn s (contactsTaken turn c L { s with scanner := v }) e).2 with scanner := v }) := by
  have exits : exitsTaken c (L.filter fun k => turn k ≤ turn e) { s with scanner := v }
      = tabulate 24 fun k =>
          if turn k ≤ turn e then exitOf (contactsTaken turn c L { s with scanner := v }) k else exitOf s k := by
    refine table_ext fun k => ?_
    rw [look_exitsTaken, look_tabulate, exitOf_contactsTaken]
    by_cases le : turn k ≤ turn e
    · simp only [List.mem_filter, le, decide_true, and_true, if_true]
    · simp only [List.mem_filter, le, decide_false, and_false, Bool.false_eq_true, if_false]; rfl
  unfold handTaken handAtTurn
  rw [exits, exitOf_contactsTaken_mem h]; rfl

/-- The engine takes the changes of availability in turn, each with the exits as they stood (R43, R44). -/
theorem contactsTaken_engine :
    (contactsTaken turn c L { s with scanner := v }).engine
      = engineTakes ((L.filter (movesExit c { s with scanner := v })).map
          (handAtTurn turn s (contactsTaken turn c L { s with scanner := v }))) s.engine := by
  have hands : (L.filter (movesExit c { s with scanner := v })).map (handTaken turn c L { s with scanner := v })
      = ((L.filter (movesExit c { s with scanner := v })).map
          (handAtTurn turn s (contactsTaken turn c L { s with scanner := v }))).map
          fun d => (d.1, { d.2 with scanner := v }) := by
    rw [List.map_map]
    exact List.map_congr_left fun e he => handTaken_eq (List.mem_of_mem_filter he)
  rw [← engineTakes_scanner _ v, ← hands]; rfl

end Engine

/-- In a change from `s` to `t` of the exits alone but for the scanner, the one exit that changes its availability hands
the engine its own change. -/
theorem takesChange_handAtTurn {turn : ExitId → Nat} {s t : State} {e : ExitId} (map : t.map = s.map)
    (zones : t.zones = s.zones) (timing : t.timing = s.timing) (bias : ∀ k, (exitOf t k).bias = (exitOf s k).bias)
    (only : ∀ k, k ≠ e → (exitOf t k).available = (exitOf s k).available)
    (engine : t.engine = engineTakes [handAtTurn turn s t e] s.engine) :
    TakesChange (if (exitOf t e).available then .loosening else .tightening) s t := by
  have stands (k : ExitId) : exitOf (handAtTurn turn s t e).2 k = if turn k ≤ turn e then exitOf t k else exitOf s k :=
    look_tabulate ..
  refine takesChange_of (w := (handAtTurn turn s t e).2) engine rfl rfl ?_ map
  refine takeSnapshot_sources map zones timing (fun k => ?_) fun k => ?_
  · rw [stands]
    split
    · rfl
    · next later => exact only k fun same => later (by rw [same])
  · rw [stands]
    split
    · rfl
    · exact bias k

/-! ## The scan in closed form -/

/-- The part after a scan: the scanner is settled, and the exits it reaches have taken their contact states in ascending
turn. -/
def scanned (levels : BitVec 32) (s : State) : State :=
  contactsTaken (turnOf s) (contactHeld (settleScan (scanRuns levels s.scanner)) s)
    (takers (scanRuns levels s.scanner) s) { s with scanner := settleScan (scanRuns levels s.scanner) }

/-- The exits whose availability a scan changes, in ascending turn. -/
def scanMovers (levels : BitVec 32) (s : State) : List ExitId :=
  (takers (scanRuns levels s.scanner) s).filter (movesExit (contactHeld (settleScan (scanRuns levels s.scanner)) s)
    { s with scanner := settleScan (scanRuns levels s.scanner) })

section Scan
variable {levels : BitVec 32} {s : State} {e : ExitId}

theorem exec_gateScan_scanned : exec (.gateScan levels) s = .next (scanned levels s) := by
  rw [exec_gateScan, gateScan_eq]
  exact congrArg _ (foldl_takeContact (fun e h => takers_defined h) (takers_pairwise levels s))

theorem exitOf_scanned_kept (h : e ∉ takers (scanRuns levels s.scanner) s) : exitOf (scanned levels s) e = exitOf s e :=
  (exitOf_contactsTaken e).trans (if_neg h)

theorem exitOf_scanned_taken (h : e ∈ takers (scanRuns levels s.scanner) s) :
    exitOf (scanned levels s) e =
      { exitOf s e with
        contact := contactOf (contactHeld (scanned levels s).scanner s e)
        copyDue := false
        available := availabilityOf (scanned levels s) e } := by
  have available : availabilityOf (scanned levels s) e = _ := availabilityOf_contactsTaken h
  rw [available]
  exact exitOf_contactsTaken_mem h

theorem mem_scanMovers : e ∈ scanMovers levels s ↔ (exitOf (scanned levels s) e).available ≠ (exitOf s e).available :=
  mem_movers

theorem scanMovers_pairwise : (scanMovers levels s).Pairwise fun a b => turnOf s a < turnOf s b :=
  (takers_pairwise levels s).filter _

theorem scanned_link : (scanned levels s).link = offerAll ((scanMovers levels s).map (exitNotice (scanned levels s))) s.link :=
  congrArg (fun ns => offerAll ns s.link) <| List.map_congr_left fun _ moves =>
    (exitNotice_contactsTaken (List.mem_of_mem_filter moves)).symm

theorem scanned_engine : (scanned levels s).engine
    = engineTakes ((scanMovers levels s).map (handAtTurn (turnOf s) s (scanned levels s))) s.engine :=
  contactsTaken_engine

/-- With no routes computed, or no availability changed, a scan leaves the engine (R44). -/
theorem scanned_engine_kept
    (h : routing s = false ∨ ∀ k, (exitOf (scanned levels s) k).available = (exitOf s k).available) :
    (scanned levels s).engine = s.engine := by
  rw [scanned_engine]
  rcases h with rests | same
  · refine engineTakes_resting _ _ fun d hd => ?_
    obtain ⟨k, -, rfl⟩ := List.mem_map.mp hd
    exact rests
  · rw [List.eq_nil_iff_forall_not_mem.mpr fun k moves => mem_scanMovers.mp moves (same k)]; rfl

/-- The one exit that changes its availability in a scan hands the engine its change. -/
theorem scanned_takesChange (only : ∀ k, k ≠ e → (exitOf (scanned levels s) k).available = (exitOf s k).available)
    (changed : (exitOf (scanned levels s) e).available ≠ (exitOf s e).available) :
    TakesChange (if (exitOf (scanned levels s) e).available then .loosening else .tightening) s (scanned levels s) := by
  have nodup : (scanMovers levels s).Nodup :=
    scanMovers_pairwise.imp fun lt same => by rw [same] at lt; exact lt.ne rfl
  have alone : scanMovers levels s = [e] :=
    List.perm_singleton.mp <| (List.perm_ext_iff_of_nodup nodup (List.nodup_singleton e)).mpr fun k => by
      rw [mem_scanMovers, List.mem_singleton]
      exact ⟨fun moves => by_contra fun other => moves (only k other), fun same => same ▸ changed⟩
  refine takesChange_handAtTurn (turn := turnOf s) rfl rfl rfl (fun k => bias_contactsTaken k) only ?_
  rw [scanned_engine, alone]; rfl

end Scan

end Sys2Proof.Machine

namespace Sys2Proof.Proofs

open Sys2Proof Sys2Proof.Machine

/-- Settles O33: the exits of a scan take their contact states in ascending turn, and those whose availability changes are
its notices and its changes. -/
theorem gateScanExits : Obligations.GateScanExits := by
  unfold Obligations.GateScanExits
  intro levels s turn
  have turn_eq : turn = turnOf s := rfl
  rw [turn_eq]
  refine ⟨scanned levels s, scanMovers levels s, exec_gateScan_scanned, fun e => ⟨fun absent => ?_, fun p d names => ?_⟩,
    scanMovers_pairwise, fun e => mem_scanMovers, scanned_link, scanned_engine, scanned_engine_kept,
    fun e => scanned_takesChange, by rw [scanned_engine]; exact engineTakes_table _ _⟩
  · refine exitOf_scanned_kept fun takes => ?_
    obtain ⟨pos, named⟩ := takers_contact takes
    rcases absent with undefined | unnamed
    · rw [takers_defined takes] at undefined; cases undefined
    · rw [named] at unnamed; cases unnamed
  · have reached := mem_takers_of_contact (v := scanRuns levels s.scanner) d names
    have follows_iff : (exitOf s e).copyDue = true
          ∨ (look (scanned levels s).scanner p.number).state ≠ (look s.scanner p.number).state
        ↔ e ∈ takers (scanRuns levels s.scanner) s := reached.trans (or_congr_right state_settleScan_ne_iff.symm) |>.symm
    refine ⟨fun follows => ?_, fun rests => exitOf_scanned_kept fun takes => rests (follows_iff.mpr takes)⟩
    rw [exitOf_scanned_taken (follows_iff.mp follows)]
    unfold contactHeld
    rw [names]
    dsimp only
    cases (look (scanned levels s).scanner p.number).state <;> rfl

end Sys2Proof.Proofs
end
